-- ==== Sys2Proof/Word.lean ====
section
/-! DEFINITION. The word types, the access sizes of the host bus, and the input pins of one clock cycle. -/

namespace Sys2Proof

/-- A byte of a frame, of `WDATA` or of a slot buffer (20_memory.md R60). -/
abbrev Byte := BitVec 8

/-- An operand register or a Modbus 16-bit field (10_state.md R21). -/
abbrev Half := BitVec 16

/-- A host bus word (20_memory.md R62). -/
abbrev Word := BitVec 32

/-- `HSIZE`: 0 = byte, 1 = word (20_memory.md R62). -/
inductive HSize where
  | byte
  | word
deriving DecidableEq, Repr

/-- The input pins of one clock cycle (43_client_fsm_timer.md R160; 30_encoding.md R87, R88;
60_exceptions.md R259, R262; 70_reset_and_hazards.md R270). Every field's default is the quiet level. -/
structure PortIn where
  /-- The reset input `RST`. -/
  rst : Bool := false
  /-- The strobe vector `EVT[4:0]`: `TICK`, `RX_BYTE`, `TX_READY`, `RUN_IN`, `RUN_OUT`, from bit 0 up. -/
  evt : BitVec 5 := 0
  /-- `rx_data[7:0]`. -/
  rxData : Byte := 0
  /-- `rx_err[3:0]`: noise, framing, parity, receiver overrun, from bit 0 up. -/
  rxErr : BitVec 4 := 0
  /-- `HSEL`: 1 = a host access in this cycle. -/
  hsel : Bool := false
  /-- `HWRITE`: 1 = `HWR`, 0 = `HRD`. -/
  hwrite : Bool := false
  /-- `HSIZE`. -/
  hsize : HSize := .byte
  /-- `HADDR[31:0]`. -/
  haddr : Word := 0
  /-- `HWDATA[31:0]`. -/
  hwdata : Word := 0
deriving DecidableEq, Repr

/-- No input is asserted, so the pins ask for no operation. -/
def PortIn.isQuiet (p : PortIn) : Bool :=
  !p.rst && p.evt == 0 && !p.hsel

end Sys2Proof
end

