-- ==== Sys2Proof/Syntax.lean ====
section
/-! DEFINITION. The operations of the engine: one constructor per row of spec/opcode_table.json. -/

namespace Sys2Proof

/-- The operations (00_scope.md R5, 30_encoding.md R80). A command carries the `dev` byte of its word
where R81 says the command uses it; its other operands are in `ARG` and `WDATA` (R82). -/
inductive Instr where
  /-- `read_coils` (44_pdu_encoders.md R191). -/
  | readCoils (dev : Byte)
  /-- `read_discrete_inputs` (R192). -/
  | readDiscreteInputs (dev : Byte)
  /-- `read_holding_registers` (R193). -/
  | readHoldingRegisters (dev : Byte)
  /-- `read_input_registers` (R194). -/
  | readInputRegisters (dev : Byte)
  /-- `write_single_coil` (R195). -/
  | writeSingleCoil (dev : Byte)
  /-- `write_single_register` (R196). -/
  | writeSingleRegister (dev : Byte)
  /-- `diagnostics` (R197). -/
  | diagnostics (dev : Byte)
  /-- `get_comm_event_counter` (R198). -/
  | getCommEventCounter (dev : Byte)
  /-- `write_multiple_coils` (R199). -/
  | writeMultipleCoils (dev : Byte)
  /-- `write_multiple_registers` (R200). -/
  | writeMultipleRegisters (dev : Byte)
  /-- `read_write_multiple_registers` (R201). -/
  | readWriteMultipleRegisters (dev : Byte)
  /-- `ENQ_RAW` (R202). -/
  | enqRaw (dev : Byte)
  /-- `DEQUEUE` (46_control_ops.md R230). -/
  | dequeue
  /-- `QUEUE_RESET` (R232). -/
  | queueReset
  /-- `CLEAR_COUNTERS` (R233). -/
  | clearCounters
  /-- `CRC_GEN` (40_crc16.md R118). -/
  | crcGen
  /-- `CRC_CHK` (R119). -/
  | crcChk
  /-- `TICK` (43_client_fsm_timer.md R161). -/
  | tick
  /-- `RX_BYTE` with `rx_data` and `rx_err` (R167). -/
  | rxByte (b : Byte) (e : BitVec 4)
  /-- `TX_READY` (R166). -/
  | txReady
  /-- `RUN_IN` (R168). -/
  | runIn
  /-- `RUN_OUT` (R165). -/
  | runOut
  /-- `HRD` (20_memory.md R62). -/
  | hrd (addr : Word) (size : HSize)
  /-- `HWR` (R63). -/
  | hwr (addr : Word) (size : HSize) (data : Word)
  /-- `RST` (70_reset_and_hazards.md R270). -/
  | rst
deriving DecidableEq, Repr

end Sys2Proof
end

