-- ==== Sys2Proof/WellFormed.lean ====
section
/-! DEFINITION. Which terms of `Instr` are the reading of some input.

Every field of `Instr` has exactly the width of its encoding, so one check is left: a word write to `CMD`
with a legal opcode IS the command (10_state.md R23, 30_encoding.md R80), and is not also an `HWR`. -/

namespace Sys2Proof

/-- The 17 legal opcodes (30_encoding.md R83). -/
def legalOpcodes : List Byte :=
  [0x01, 0x02, 0x03, 0x04, 0x05, 0x06, 0x08, 0x0B, 0x0F, 0x10, 0x17,
   0x80, 0x81, 0x82, 0x83, 0x84, 0x85]

/-- The bus write is the issue of a command. -/
def isCommandWrite (addr : Word) (size : HSize) (data : Word) : Bool :=
  addr == 0 && size == .word && legalOpcodes.contains (data.extractLsb' 0 8)

/-- The instruction is what the decoder reads from some input pins. -/
def Instr.wf : Instr → Bool
  | .hwr addr size data => !isCommandWrite addr size data
  | .readCoils _ | .readDiscreteInputs _ | .readHoldingRegisters _ | .readInputRegisters _
  | .writeSingleCoil _ | .writeSingleRegister _ | .diagnostics _ | .getCommEventCounter _
  | .writeMultipleCoils _ | .writeMultipleRegisters _ | .readWriteMultipleRegisters _ | .enqRaw _
  | .dequeue | .queueReset | .clearCounters | .crcGen | .crcChk
  | .tick | .rxByte _ _ | .txReady | .runIn | .runOut | .hrd _ _ | .rst => true

end Sys2Proof
end

