-- ==== Sys2Proof/Decode.lean ====
section
/-! DEFINITION. Decoding of command words and input pins, and the encoder beside it
(30_encoding.md R80 to R83, R87, R88). -/

namespace Sys2Proof

/-- Why a decoder rejects its input. -/
inductive DecodeError where
  /-- The low byte of a command word is none of the 17 opcodes (30_encoding.md R83, R86). -/
  | illegalOpcode (op : Byte)
  /-- The pins assert no reset, no strobe and no access. -/
  | noOperation
deriving DecidableEq, Repr

/-- The 17 opcodes (30_encoding.md R82, R83). -/
inductive Opcode where
  | readCoils | readDiscreteInputs | readHoldingRegisters | readInputRegisters | writeSingleCoil
  | writeSingleRegister | diagnostics | getCommEventCounter | writeMultipleCoils
  | writeMultipleRegisters | readWriteMultipleRegisters | enqRaw | dequeue | queueReset
  | clearCounters | crcGen | crcChk
deriving DecidableEq, Repr

/-- The opcode map (30_encoding.md R82, R83). -/
def decodeOpcode (op : Byte) : Option Opcode :=
  if op = 0x01 then some .readCoils
  else if op = 0x02 then some .readDiscreteInputs
  else if op = 0x03 then some .readHoldingRegisters
  else if op = 0x04 then some .readInputRegisters
  else if op = 0x05 then some .writeSingleCoil
  else if op = 0x06 then some .writeSingleRegister
  else if op = 0x08 then some .diagnostics
  else if op = 0x0B then some .getCommEventCounter
  else if op = 0x0F then some .writeMultipleCoils
  else if op = 0x10 then some .writeMultipleRegisters
  else if op = 0x17 then some .readWriteMultipleRegisters
  else if op = 0x80 then some .enqRaw
  else if op = 0x81 then some .dequeue
  else if op = 0x82 then some .queueReset
  else if op = 0x83 then some .clearCounters
  else if op = 0x84 then some .crcGen
  else if op = 0x85 then some .crcChk
  else none

/-- Command word bits 7:0 (30_encoding.md R81). -/
def wordOpcode (w : Word) : Byte := w.extractLsb' 0 8

/-- Command word bits 15:8 (30_encoding.md R81). -/
def wordDev (w : Word) : Byte := w.extractLsb' 8 8

/-- The command an opcode and a `dev` byte stand for; opcodes 0x81 to 0x85 ignore `dev` (30_encoding.md R81). -/
def Opcode.toInstr (dev : Byte) : Opcode → Instr
  | .readCoils => .readCoils dev
  | .readDiscreteInputs => .readDiscreteInputs dev
  | .readHoldingRegisters => .readHoldingRegisters dev
  | .readInputRegisters => .readInputRegisters dev
  | .writeSingleCoil => .writeSingleCoil dev
  | .writeSingleRegister => .writeSingleRegister dev
  | .diagnostics => .diagnostics dev
  | .getCommEventCounter => .getCommEventCounter dev
  | .writeMultipleCoils => .writeMultipleCoils dev
  | .writeMultipleRegisters => .writeMultipleRegisters dev
  | .readWriteMultipleRegisters => .readWriteMultipleRegisters dev
  | .enqRaw => .enqRaw dev
  | .dequeue => .dequeue
  | .queueReset => .queueReset
  | .clearCounters => .clearCounters
  | .crcGen => .crcGen
  | .crcChk => .crcChk

/-- Format CMD: only the low byte selects the command; bits 31:16 are ignored (30_encoding.md R81, R83, R86). -/
def decodeCommand (w : Word) : Except DecodeError Instr :=
  match decodeOpcode (wordOpcode w) with
  | some op => .ok (op.toInstr (wordDev w))
  | none => .error (.illegalOpcode (wordOpcode w))

/-- Format BUS: a host access (30_encoding.md R88). A word write to `CMD` with a legal opcode is the command
itself (10_state.md R23); with any other opcode it stays an `HWR`, whose meaning rejects it (R86). -/
def decodeAccess (write : Bool) (size : HSize) (addr data : Word) : Instr :=
  if write then
    if addr = 0 ∧ size = .word then
      match decodeCommand data with
      | .ok i => i
      | .error _ => .hwr addr size data
    else .hwr addr size data
  else .hrd addr size

/-- The first operation that the pins ask for, in the order of 43_client_fsm_timer.md R160; `RST` overrides
every other input of its cycle (70_reset_and_hazards.md R270). -/
def decode (p : PortIn) : Except DecodeError Instr :=
  if p.rst then .ok .rst
  else if p.evt.getLsbD 0 then .ok .tick
  else if p.evt.getLsbD 1 then .ok (.rxByte p.rxData p.rxErr)
  else if p.evt.getLsbD 2 then .ok .txReady
  else if p.evt.getLsbD 3 then .ok .runIn
  else if p.evt.getLsbD 4 then .ok .runOut
  else if p.hsel then .ok (decodeAccess p.hwrite p.hsize p.haddr p.hwdata)
  else .error .noOperation

/-- The pins with their lowest strobe cleared. -/
def clearFirstStrobe (p : PortIn) : PortIn := { p with evt := p.evt &&& (p.evt - 1) }

/-- What is left of the pins once their first operation has been carried out: nothing after `RST` or after the
host access, and one strobe less after an event. -/
def consume (p : PortIn) : PortIn :=
  if p.rst || p.evt == 0 || (clearFirstStrobe p).isQuiet then {} else clearFirstStrobe p

/-- The `EVT` pins of one event (30_encoding.md R87). -/
def encodeEvent (strobe : BitVec 5) : PortIn := { evt := strobe }

/-- The pins of one host access (30_encoding.md R88). -/
def encodeAccess (write : Bool) (size : HSize) (addr data : Word) : PortIn :=
  { hsel := true, hwrite := write, hsize := size, haddr := addr, hwdata := data }

/-- The command word (30_encoding.md R81): bits 31:16 zero, `dev`, opcode. -/
def commandWord (dev op : Byte) : Word := 0#16 ++ dev ++ op

/-- The pins of a command: a word write to `CMD` (30_encoding.md R80). -/
def encodeCommand (dev op : Byte) : PortIn := encodeAccess true .word 0 (commandWord dev op)

/-- The input pins that ask for exactly this operation. -/
def encode : Instr → PortIn
  | .readCoils dev => encodeCommand dev 0x01
  | .readDiscreteInputs dev => encodeCommand dev 0x02
  | .readHoldingRegisters dev => encodeCommand dev 0x03
  | .readInputRegisters dev => encodeCommand dev 0x04
  | .writeSingleCoil dev => encodeCommand dev 0x05
  | .writeSingleRegister dev => encodeCommand dev 0x06
  | .diagnostics dev => encodeCommand dev 0x08
  | .getCommEventCounter dev => encodeCommand dev 0x0B
  | .writeMultipleCoils dev => encodeCommand dev 0x0F
  | .writeMultipleRegisters dev => encodeCommand dev 0x10
  | .readWriteMultipleRegisters dev => encodeCommand dev 0x17
  | .enqRaw dev => encodeCommand dev 0x80
  | .dequeue => encodeCommand 0 0x81
  | .queueReset => encodeCommand 0 0x82
  | .clearCounters => encodeCommand 0 0x83
  | .crcGen => encodeCommand 0 0x84
  | .crcChk => encodeCommand 0 0x85
  | .tick => encodeEvent 0b00001
  | .rxByte b e => { encodeEvent 0b00010 with rxData := b, rxErr := e }
  | .txReady => encodeEvent 0b00100
  | .runIn => encodeEvent 0b01000
  | .runOut => encodeEvent 0b10000
  | .hrd addr size => encodeAccess false size addr 0
  | .hwr addr size data => encodeAccess true size addr data
  | .rst => { rst := true }

/-- One operation's bits, numbered as spec/opcode_table.json numbers them, laid out on the pins.

- Up to 24 bits: format EVT, the strobes in bits 4:0 as the table has them; the table gives the data inputs no
  bits, and the model puts `rx_data` in bits 15:8 and `rx_err` in bits 19:16. DESIGN CHOICE, log 10.
- Up to 32 bits: format CMD, the command word written to `CMD` (30_encoding.md R81).
- More: formats BUS and PIN, for which the spec has named signals and no bit numbers; the model puts `HADDR`
  in bits 31:0, `HWDATA` in 63:32, `HSIZE` in 64, `HWRITE` in 65, `HSEL` in 66 and `RST` in 67.
  DESIGN CHOICE, log 10. -/
def PortIn.ofTableWord (nbits w : Nat) : PortIn :=
  let bits := BitVec.ofNat 72 (w % 2 ^ nbits)
  if nbits ≤ 24 then
    { evt := bits.extractLsb' 0 5, rxData := bits.extractLsb' 8 8, rxErr := bits.extractLsb' 16 4 }
  else if nbits ≤ 32 then encodeAccess true .word 0 (bits.extractLsb' 0 32)
  else
    { rst := bits.getLsbD 67, hsel := bits.getLsbD 66, hwrite := bits.getLsbD 65,
      hsize := if bits.getLsbD 64 then .word else .byte,
      haddr := bits.extractLsb' 0 32, hwdata := bits.extractLsb' 32 32 }

/-- The instruction the decoder reads from an instruction whose bits are `w`. -/
def decodeTableWord (nbits w : Nat) : Option Instr :=
  match decode (PortIn.ofTableWord nbits w) with
  | .ok i => some i
  | .error _ => none

end Sys2Proof
end

