-- ==== Sys2Proof/Config.lean ====
section
/-! DEFINITION. What an implementation fixes (00_scope.md R6) and the values the spec leaves open. -/

namespace Sys2Proof

/-- Bytes of transmit buffer per slot, `TX_CAP` (00_scope.md R6). -/
abbrev Config.txCap : Nat := 256

/-- Bytes of receive buffer per slot, `RX_CAP` (00_scope.md R6). -/
abbrev Config.rxCap : Nat := 256

/-- Bytes of the staging buffer, `WDATA_CAP` = `TX_CAP` - 4 (00_scope.md R6). -/
abbrev Config.wdataCap : Nat := 252

/-- Number of diagnostic counters, `NUM_CTR` (00_scope.md R6). -/
abbrev Config.numCtr : Nat := 18

/-- The parameters a model takes as arguments (00_scope.md R6): `N` is OPEN, and the four `*_RESET`
values are kept as configuration fields, as that rule asks. -/
structure Params where
  /-- `IDX_W` = log2 N. -/
  idxW : Nat
  /-- `DUR_RESPONSE_RESET`. -/
  durResponse : Word
  /-- `DUR_INTERCHAR_RESET`. -/
  durInterchar : Word
  /-- `DUR_TURNAROUND_RESET`. -/
  durTurnaround : Word
  /-- `DUR_INTERFRAME_RESET`. -/
  durInterframe : Word
deriving DecidableEq, Repr

/-- `N`, a power of two (00_scope.md R6). -/
def Params.n (p : Params) : Nat := 2 ^ p.idxW

/-- 2 <= N <= 256 (00_scope.md R6). -/
def Params.wf (p : Params) : Bool := decide (1 ≤ p.idxW) && decide (p.idxW ≤ 8)

/-- The values of 00_scope.md R6, with N = 4. DESIGN CHOICE (log 1): R6 leaves N open and uses 4 in its examples. -/
def Params.examples : Params where
  idxW := 2
  durResponse := 50000
  durInterchar := 8000
  durTurnaround := 500
  durInterframe := 2000

/-- FREE VALUE (log 5). The byte that `WDATA[k]` holds after the `r`-th reset until the host writes it:
unspecified (10_state.md R42, 70_reset_and_hazards.md R271). -/
opaque Config.wdataAfterReset (r k : Nat) : Byte

/-- FREE VALUE (log 6). The `j`-th unspecified slot byte returned to the host: a read of `tx[k]` with
`k >= tx_len` or of `rx[k]` with `k >= rx_cnt` returns an unspecified byte (20_memory.md R69). -/
opaque Config.staleByte (j : Nat) : Byte

/-- FREE VALUE (log 6). Byte `k` of a slot buffer that nothing has written since reset (10_state.md R45). -/
opaque Config.unwrittenByte (k : Nat) : Byte

end Sys2Proof
end

