-- ==== Sys2Proof/Machine/State.lean ====
section
/-! DEFINITION. The state of the engine (10_state.md R20), its outputs, and the state after reset (R45). -/

namespace Sys2Proof.Machine

/-- Why the machine stops with a fault: never. The engine has no trap, no fault state and no stuck state
(00_scope.md R11), so there is nothing to list, and nothing unsafe. -/
inductive Fault
deriving DecidableEq, Repr

/-- Why an operation has no meaning. -/
inductive Refusal where
  /-- Raised by a refused arm of `exec` for an instruction the model does not give a meaning to; no arm does. Safe. -/
  | notModelled (mnemonic : String)
deriving DecidableEq, Repr

/-- The client state `FSM` (10_state.md R24). -/
inductive Fsm where
  | initial
  | idle
  | emission
  | reception
  | ignoring
deriving DecidableEq, Repr

/-- The enabled timer purpose `TMR` (10_state.md R33). -/
inductive Tmr where
  | none
  | response
  | interchar
  | turnaround
  | interframe
deriving DecidableEq, Repr

/-- The lifecycle state of a slot (10_state.md R38). -/
inductive Life where
  | unused
  | queued
  | sent
  | finished
  | dequeued
deriving DecidableEq, Repr

/-- A transaction record `SLOT[i]` (10_state.md R37). A buffer is the list of its bytes written since reset,
from index 0 up; both are only ever written without gaps (41_transaction.md R121, R124). -/
structure Slot where
  /-- The transmit buffer. -/
  tx : List Byte
  /-- `tx_len`, 9 bits, 0..256. -/
  txLen : Nat
  /-- `tx_idx`, 9 bits, 0..256. -/
  txIdx : Nat
  /-- The receive buffer. -/
  rx : List Byte
  /-- `rx_cnt`, 9 bits, 0..256. -/
  rxCnt : Nat
  /-- `exp_len`, 9 bits, 0..256. -/
  expLen : Nat
  /-- `len_known`. -/
  lenKnown : Bool
  /-- The lifecycle state, the field `state` of R37. -/
  life : Life
  /-- `valid_mask` (10_state.md R27). -/
  validMask : Byte
deriving DecidableEq, Repr

/-- A slot after reset (10_state.md R45). -/
def Slot.blank : Slot where
  tx := []
  txLen := 0
  txIdx := 0
  rx := []
  rxCnt := 0
  expLen := 0
  lenKnown := false
  life := .unused
  validMask := 0

/-- The bytes of the host bus space that a host write can change, `WDATA` (20_memory.md R61, R63), as
(bus address, byte) cells: addresses strictly rising, an unlisted address not written since reset. -/
abbrev Memory := List Host.Cell

/-- The state of the engine. -/
structure State where
  /-- The parameters (00_scope.md R6), never written. The model's own field, log 1. -/
  params : Params
  /-- `ARG[0..4]` (10_state.md R21). -/
  args : Vector Half 5
  /-- `RESULT` (R22). -/
  result : Word
  /-- `FSM` (R24). -/
  fsm : Fsm
  /-- `FRONT` (R25), IDX_W bits. -/
  front : Nat
  /-- `BACK` (R25), IDX_W bits. -/
  back : Nat
  /-- `ACTIVE` (R25), IDX_W bits. -/
  active : Nat
  /-- `SLOT[0..N-1]` (R37). -/
  slots : List Slot
  /-- `TMR` (R33). -/
  tmr : Tmr
  /-- `TMR_START` (R34). -/
  tmrStart : Word
  /-- `TIME` (R32). -/
  time : Word
  /-- `DUR_RESPONSE` (R36). -/
  durResponse : Word
  /-- `DUR_INTERCHAR` (R36). -/
  durInterchar : Word
  /-- `DUR_TURNAROUND` (R36). -/
  durTurnaround : Word
  /-- `DUR_INTERFRAME` (R36). -/
  durInterframe : Word
  /-- `CTR[0..17]` (R40, R41). -/
  ctr : Vector Word 18
  /-- `TX_EN` (R28). -/
  txEn : Bool
  /-- `WDATA` (R42). -/
  mem : Memory
  /-- Output of the current cycle: `tx_valid` with `tx_data` (60_exceptions.md R259). -/
  txOut : Option Byte
  /-- Output of the current cycle: `HRDATA`, if a read has driven it (R262). -/
  hrdata : Option Word
  /-- Output of the current cycle: `HERR` (20_memory.md R65). -/
  herr : Bool
  /-- Every byte handed to the driver by `wire_tx`, oldest first (00_scope.md R10). An outside record, log 9. -/
  wire : List Byte
  /-- The input pins of the current cycle still to be carried out (43_client_fsm_timer.md R160). The model's own, log 7. -/
  pins : PortIn
  /-- The input pins of the cycles to come, supplied from outside. The model's own, log 8. -/
  inputs : List PortIn
  /-- How many `RST` have been carried out. The model's own, log 5. -/
  resets : Nat
  /-- How many unspecified slot bytes host reads have returned. The model's own, log 6. -/
  staleReads : Nat
deriving DecidableEq, Repr

/-- The reset state (10_state.md R45) for the given parameters and initial `TIME`, which R32 makes a free input. -/
def State.resetWith (p : Params) (time : Word) : State where
  params := p
  args := Vector.replicate 5 0
  result := 0
  fsm := .initial
  front := 0
  back := 0
  active := 0
  slots := List.replicate p.n Slot.blank
  tmr := .none
  tmrStart := 0
  time := time
  durResponse := p.durResponse
  durInterchar := p.durInterchar
  durTurnaround := p.durTurnaround
  durInterframe := p.durInterframe
  ctr := Vector.replicate 18 0
  txEn := false
  mem := []
  txOut := Option.none
  hrdata := some 0
  herr := false
  wire := []
  pins := {}
  inputs := []
  resets := 0
  staleReads := 0

/-- The machine right after reset. DESIGN CHOICE: N = 4 (log 1) and `TIME` = 0 (log 3). -/
def State.reset : State := State.resetWith Params.examples 0

end Sys2Proof.Machine
end

