-- ==== Sys2Proof/Machine/Cycle.lean ====
section
/-! DEFINITION. The sequencing of one clock cycle (43_client_fsm_timer.md R160): where the next operation comes from. -/

namespace Sys2Proof.Machine

/-- `EVT[3]` and `EVT[4]`, the poller's strobes, are 1 in every cycle (30_encoding.md R87). -/
def withPoller (p : PortIn) : PortIn := { p with evt := p.evt ||| 0b11000 }

/-- The input pins of the next clock cycle; when nothing is supplied from outside, only the poller is active (log 8). -/
def State.nextPins (s : State) : PortIn := withPoller (s.inputs.headD {})

/-- The start of the next clock cycle: its pins are sampled, and the cycle's outputs return to their quiet values,
`tx_valid` = 0 and `HERR` = 0 (43_client_fsm_timer.md R160, R166; 20_memory.md R65). -/
def State.startCycle (s : State) : State :=
  { s with pins := s.nextPins, inputs := s.inputs.tail, txOut := none, hrdata := none, herr := false }

/-- The state in which the next operation is on the pins: a new cycle starts when the current one is done. -/
def State.fetch (s : State) : State := if s.pins.isQuiet then s.startCycle else s

/-- The state in which a fetched operation runs: it is no longer on the pins. -/
def State.consumed (s : State) : State := { s with pins := consume s.pins }

/-- The operations of one clock cycle in their fixed order (43_client_fsm_timer.md R160); `RST` stands alone
(70_reset_and_hazards.md R270). -/
def cycleOps (p : PortIn) : List Instr :=
  if p.rst then [.rst]
  else
    (if p.evt.getLsbD 0 then [.tick] else []) ++
    (if p.evt.getLsbD 1 then [.rxByte p.rxData p.rxErr] else []) ++
    (if p.evt.getLsbD 2 then [.txReady] else []) ++
    [.runIn, .runOut] ++
    (if p.hsel then [decodeAccess p.hwrite p.hsize p.haddr p.hwdata] else [])

end Sys2Proof.Machine
end

