-- ==== Sys2Proof/Machine/Flags.lean ====
section
/-! DEFINITION. Validity bits, counters, derived status bits, result codes: every flag computation of the spec. -/

namespace Sys2Proof.Machine

/-- The eight anomalies (60_exceptions.md R241). -/
inductive Anomaly where
  | noise
  | framing
  | parity
  | receiverOverrun
  | responseTimeout
  | unexpectedResponder
  | crcError
  | intercharTimeout
deriving DecidableEq, Repr

/-- The bit of `valid_mask` (10_state.md R27). -/
def Anomaly.mask : Anomaly → Byte
  | .noise => 0x01
  | .framing => 0x02
  | .parity => 0x04
  | .receiverOverrun => 0x08
  | .responseTimeout => 0x10
  | .unexpectedResponder => 0x20
  | .crcError => 0x40
  | .intercharTimeout => 0x80

/-- `ctr(REASON)`, the counter of an anomaly (41_transaction.md R129). -/
def Anomaly.counter : Anomaly → Fin 18
  | .noise => 6
  | .framing => 7
  | .parity => 8
  | .receiverOverrun => 9
  | .responseTimeout => 4
  | .unexpectedResponder => 3
  | .crcError => 2
  | .intercharTimeout => 5

/-- A counter increment saturates at 2^32 - 1 (10_state.md R41). -/
def satInc (c : Word) : Word := if c = 0xFFFFFFFF then c else c + 1

/-- Increment counter `CTR[k]` (10_state.md R41). -/
def State.bump (s : State) (k : Fin 18) : State :=
  { s with ctr := s.ctr.set k (satInc s.ctr[k]) }

/-- `is_valid(t)` (41_transaction.md R130). -/
def Slot.isValid (t : Slot) : Bool := t.validMask == 0

/-- The 3-bit code of `FSM` (10_state.md R24). -/
def Fsm.code : Fsm → BitVec 3
  | .initial => 0
  | .idle => 1
  | .emission => 2
  | .reception => 3
  | .ignoring => 4

/-- The 3-bit code of `TMR` (10_state.md R33). -/
def Tmr.code : Tmr → BitVec 3
  | .none => 0
  | .response => 1
  | .interchar => 2
  | .turnaround => 3
  | .interframe => 4

/-- The 3-bit code of a slot's lifecycle state (10_state.md R38). -/
def Life.code : Life → BitVec 3
  | .unused => 0
  | .queued => 1
  | .sent => 2
  | .finished => 3
  | .dequeued => 4

/-- The slot is `finished` or `dequeued`, so `available_to_send` advances past it (42_message_queue.md R145). -/
def Life.isDone : Life → Bool
  | .finished | .dequeued => true
  | .unused | .queued | .sent => false

/-- N (00_scope.md R6). -/
def State.n (s : State) : Nat := s.params.n

/-- `SLOT[i]`. -/
def State.slot (s : State) (i : Nat) : Slot := s.slots.getD i Slot.blank

/-- `A`, the active transaction `SLOT[ACTIVE]` (00_scope.md R13). -/
def State.activeSlot (s : State) : Slot := s.slot s.active

/-- `size() = (BACK - FRONT) mod N` (42_message_queue.md R142). -/
def State.size (s : State) : Nat := (s.back + s.n - s.front) % s.n

/-- `full()` (42_message_queue.md R143). -/
def State.full (s : State) : Bool := s.size == s.n - 1

/-- `is_response_ready()` (42_message_queue.md R146). -/
def State.responseReady (s : State) : Bool :=
  s.front != s.back && (s.slot s.front).life == .finished

/-- `IRQ_RESP` (60_exceptions.md R253). -/
def State.irqResp (s : State) : Bool := s.responseReady

/-- `DUR[k]`, the duration of a timer purpose (10_state.md R36); no duration belongs to `none`. -/
def State.duration (s : State) : Tmr → Word
  | .none => 0
  | .response => s.durResponse
  | .interchar => s.durInterchar
  | .turnaround => s.durTurnaround
  | .interframe => s.durInterframe

/-- `(TIME - TMR_START) mod 2^32` (43_client_fsm_timer.md R163). -/
def State.elapsed (s : State) : Word := s.time - s.tmrStart

/-- `expired()` (43_client_fsm_timer.md R163). -/
def State.expired (s : State) : Bool :=
  s.tmr != .none && decide ((s.duration s.tmr).toNat ≤ s.elapsed.toNat)

/-- `STATUS` (10_state.md R30). -/
def State.statusWord (s : State) : Word :=
  0#22 ++ BitVec.ofBool s.expired ++ BitVec.ofBool s.full ++ BitVec.ofBool s.responseReady
    ++ BitVec.ofBool s.txEn ++ s.tmr.code ++ s.fsm.code

/-- `QSTAT` (10_state.md R31). -/
def State.qstatWord (s : State) : Word :=
  BitVec.ofNat 8 s.size ++ BitVec.ofNat 8 s.active ++ BitVec.ofNat 8 s.back ++ BitVec.ofNat 8 s.front

/-- `SLOT_HDR0` (20_memory.md R69). -/
def Slot.hdr0 (t : Slot) : Word :=
  0#15 ++ BitVec.ofBool t.lenKnown ++ t.validMask ++ 0#5 ++ t.life.code

/-- `SLOT_HDR1` (20_memory.md R69). -/
def Slot.hdr1 (t : Slot) : Word :=
  0#7 ++ BitVec.ofNat 9 t.txIdx ++ 0#7 ++ BitVec.ofNat 9 t.txLen

/-- `SLOT_HDR2` (20_memory.md R69). -/
def Slot.hdr2 (t : Slot) : Word :=
  0#7 ++ BitVec.ofNat 9 t.expLen ++ 0#7 ++ BitVec.ofNat 9 t.rxCnt

/-- The reject reasons (30_encoding.md R85). -/
inductive Reject where
  | bounds
  | queueFull
  | illegalOpcode
  | notReady
deriving DecidableEq, Repr

/-- `REASON` (30_encoding.md R85). -/
def Reject.code : Reject → Byte
  | .bounds => 1
  | .queueFull => 2
  | .illegalOpcode => 3
  | .notReady => 4

/-- `RESULT` of a rejected command, `REASON << 8` (30_encoding.md R85). -/
def resultReject (r : Reject) : Word := 0#16 ++ r.code ++ 0#8

/-- `RESULT` of a command that was carried out, with its `VALUE` field (30_encoding.md R84). -/
def resultOk (value : Half) : Word := value ++ 1#16

end Sys2Proof.Machine
end

