-- ==== Sys2Proof/Machine/Operands.lean ====
section
/-! DEFINITION. Every operand form: `ARG` registers, prefixes of `WDATA`, and the byte strings built from them. -/

namespace Sys2Proof.Machine

/-- `be16(v)`, high byte first (00_scope.md R12, 20_memory.md R67). -/
def be16 (v : Half) : List Byte := [v.extractLsb' 8 8, v.extractLsb' 0 8]

/-- `le16(v)`, low byte first (00_scope.md R12, 40_crc16.md R116). -/
def le16 (v : Half) : List Byte := [v.extractLsb' 0 8, v.extractLsb' 8 8]

/-- A 16-bit value from its low and its high byte. -/
def ofLoHi (lo hi : Byte) : Half := lo.setWidth 16 ||| (hi.setWidth 16 <<< 8)

/-- `ceil8(c)`, the number of bytes that hold `c` bits (00_scope.md R8). -/
def ceil8 (c : Nat) : Nat := (c + 7) >>> 3

/-- A count operand lies in `lo..hi` (44_pdu_encoders.md). -/
def inRange (lo hi : Nat) (v : Half) : Bool := decide (lo ≤ v.toNat) && decide (v.toNat ≤ hi)

/-- `ARG[k]` (10_state.md R21). -/
def State.arg (s : State) (k : Fin 5) : Half := s.args[k]

/-- Write `ARG[k]` (20_memory.md R63). -/
def State.setArg (s : State) (k : Fin 5) (v : Half) : State := { s with args := s.args.set k v }

/-- The bus address of `WDATA[0]` (20_memory.md R61). -/
def wdataBase : Nat := 0x0100

/-- The byte listed at an address, if any. -/
def Memory.get? : Memory → Nat → Option Byte
  | [], _ => none
  | (a, b) :: m, k => if a = k then some b else Memory.get? m k

/-- `WDATA[k]` (10_state.md R42). What an unlisted address reads as: a byte the host has not written since reset
is unspecified, so it is a free value (70_reset_and_hazards.md R271, log 5). -/
def State.wdataByte (s : State) (k : Nat) : Byte :=
  (Memory.get? s.mem (wdataBase + k)).getD (Config.wdataAfterReset s.resets k)

/-- `WDATA[0 .. n)` (30_encoding.md R82). -/
def State.wdataPrefix (s : State) (n : Nat) : List Byte := (List.range n).map s.wdataByte

/-- `tx[k]` of a slot (10_state.md R37); a byte nothing has written is unspecified (R45, log 6). -/
def Slot.txByte (t : Slot) (k : Nat) : Byte := t.tx.getD k (Config.unwrittenByte k)

/-- `rx[k]` of a slot (10_state.md R37); a byte nothing has written is unspecified (R45, log 6). -/
def Slot.rxByte (t : Slot) (k : Nat) : Byte := t.rx.getD k (Config.unwrittenByte k)

/-- `tx[0 .. tx_len)`, the request frame. -/
def Slot.txFrame (t : Slot) : List Byte := t.tx.take t.txLen

/-- `rx[0 .. rx_cnt)`, the response bytes as received so far. -/
def Slot.rxFrame (t : Slot) : List Byte := t.rx.take t.rxCnt

end Sys2Proof.Machine
end

