-- ==== Sys2Proof/Machine/Ops.lean ====
section
/-! DEFINITION. The named operations over memory, slots, timer, counters and results that the meanings share. -/

namespace Sys2Proof.Machine

/-- The canonical form: the addresses of the cells are strictly rising, so no address is listed twice. -/
def Memory.wf : Memory → Bool
  | [] => true
  | [_] => true
  | c :: d :: m => decide (c.1 < d.1) && Memory.wf (d :: m)

/-- Write one byte, keeping the canonical form. -/
def Memory.set : Memory → Nat → Byte → Memory
  | [], k, v => [(k, v)]
  | (a, b) :: m, k, v =>
    if k < a then (k, v) :: (a, b) :: m
    else if k = a then (a, v) :: m
    else (a, b) :: Memory.set m k v

/-- Write `WDATA[k]` (20_memory.md R63). -/
def State.setWdata (s : State) (k : Nat) (v : Byte) : State :=
  { s with mem := Memory.set s.mem (wdataBase + k) v }

/-- Replace `SLOT[i]`. -/
def State.setSlot (s : State) (i : Nat) (t : Slot) : State := { s with slots := s.slots.set i t }

/-- Replace `A`, the active transaction. -/
def State.setActive (s : State) (t : Slot) : State := s.setSlot s.active t

/-- `inc(i)`, modulo N (42_message_queue.md R141). -/
def State.inc (s : State) (i : Nat) : Nat := (i + 1) % s.n

/-- Complete a command: `RESULT` is written, and the bus write that issued it was legal, so `HERR` is 0
(10_state.md R22, 20_memory.md R63). -/
def State.commandDone (s : State) (result : Word) : State := { s with result := result, herr := false }

/-- A rejected command writes its reason into `RESULT` and changes nothing else (30_encoding.md R85). -/
def State.rejectCommand (s : State) (r : Reject) : State := s.commandDone (resultReject r)

/-- `arm(k)` (43_client_fsm_timer.md R162). -/
def State.arm (s : State) (k : Tmr) : State := { s with tmr := k, tmrStart := s.time }

/-- A slot with its lifecycle state replaced: `mark_queued`, `mark_sent`, `mark_finished` and `mark_dequeued`
write `state` and nothing else (41_transaction.md R131). -/
def Slot.mark (t : Slot) (l : Life) : Slot := { t with life := l }

/-- The mask half of `invalidate` (41_transaction.md R129). -/
def Slot.flag (t : Slot) (a : Anomaly) : Slot := { t with validMask := t.validMask ||| a.mask }

/-- RAISING AN ANOMALY on the active transaction, the engine's counterpart of taking an exception:
`invalidate(A, REASON)` sets the validity bit and increments the counter, and changes nothing else
(41_transaction.md R129, 60_exceptions.md R240, R248). -/
def State.invalidate (s : State) (a : Anomaly) : State :=
  (s.setActive (s.activeSlot.flag a)).bump a.counter

/-- `invalidate(A, REASON)` if the condition holds. -/
def State.invalidateIf (s : State) (c : Bool) (a : Anomaly) : State := if c then s.invalidate a else s

/-- `mark_finished(A)` (41_transaction.md R131). -/
def State.markFinished (s : State) : State := s.setActive (s.activeSlot.mark .finished)

/-- Leaving `emission` or `reception` at a terminal condition: the inter-frame delay is armed and `FSM` is written
(43_client_fsm_timer.md R176). There is no return operation beside it (60_exceptions.md R249). -/
def State.leave (s : State) (next : Fsm) : State := { s.arm .interframe with fsm := next }

/-- `wire_tx(b)`: the byte goes to the driver in this cycle and is recorded in order
(00_scope.md R10, 43_client_fsm_timer.md R166). -/
def State.wireTx (s : State) (b : Byte) : State := { s with txOut := some b, wire := s.wire ++ [b] }

end Sys2Proof.Machine
end

