-- ==== Sys2Proof/Machine/Transaction.lean ====
section
/-! DEFINITION. The operations on one transaction (41_transaction.md). -/

namespace Sys2Proof.Machine

/-- The record `load` builds: a frame and what is known of its response. It exists only inside one command and is
not state (41_transaction.md R120). -/
structure Request where
  /-- `tx[0 .. tx_len)`. -/
  frame : List Byte
  /-- `exp_len`. -/
  expLen : Nat
  /-- `len_known`. -/
  lenKnown : Bool
deriving DecidableEq, Repr

/-- The request frame: address, function code, payload, then the CRC over them, low byte first
(30_encoding.md R89, 41_transaction.md R121). -/
def frameOf (dev fc : Byte) (p : List Byte) : List Byte :=
  dev :: fc :: p ++ le16 (crcGenerate (dev :: fc :: p))

/-- `load(dev, fc, p, exp, known)`, with `none` for REJECT (41_transaction.md R121). -/
def load (dev fc : Byte) (p : List Byte) (exp : Nat) (known : Bool) : Option Request :=
  if Config.txCap < p.length + 4 then none
  else if known = true ∧ Config.rxCap < exp then none
  else some { frame := frameOf dev fc p, expLen := if known then exp else 0, lenKnown := known }

/-- `load2`, the two-segment form (41_transaction.md R122). -/
def load2 (dev fc : Byte) (p1 p2 : List Byte) (exp : Nat) (known : Bool) : Option Request :=
  load dev fc (p1 ++ p2) exp known

/-- A slot after a loaded record has been copied into it: `rx[..]` and `tx[tx_len ..]` keep their old bytes, and the
state is the `unused` of a loaded record (41_transaction.md R121, 42_message_queue.md R144). -/
def Slot.overwrite (t : Slot) (r : Request) : Slot where
  tx := r.frame ++ t.tx.drop r.frame.length
  txLen := r.frame.length
  txIdx := 0
  rx := t.rx
  rxCnt := 0
  expLen := r.expLen
  lenKnown := r.lenKnown
  life := .unused
  validMask := 0

/-- `reset(t)`: the buffer bytes are not cleared (41_transaction.md R132). -/
def Slot.reset (t : Slot) : Slot where
  tx := t.tx
  txLen := 0
  txIdx := 0
  rx := t.rx
  rxCnt := 0
  expLen := 0
  lenKnown := false
  life := .unused
  validMask := 0

/-- `is_fully_sent(t)` (41_transaction.md R125). -/
def Slot.isFullySent (t : Slot) : Bool := decide (t.txLen ≤ t.txIdx)

/-- The byte `pop_tx_byte(t)` returns (41_transaction.md R123). The engine asks only when one is left; on an
exhausted buffer it is any byte (93_implementation_defined.md U3; log 6). -/
def Slot.nextTxByte (t : Slot) : Byte := t.txByte t.txIdx

/-- The record after `pop_tx_byte(t)` (41_transaction.md R123). R123 defines it only with a byte left, which is where
the engine calls it; an exhausted buffer is left as it is, the treatment 93_implementation_defined.md U3 gives a model
that makes the function total (log 6). -/
def Slot.popTxByte (t : Slot) : Slot := if t.isFullySent then t else { t with txIdx := t.txIdx + 1 }

/-- Byte `b` stored at index `rx_cnt`, and `rx_cnt` advanced (41_transaction.md R124). -/
def Slot.storeRx (t : Slot) (b : Byte) : Slot :=
  { t with rx := t.rx.take t.rxCnt ++ b :: t.rx.drop (t.rxCnt + 1), rxCnt := t.rxCnt + 1 }

/-- `push_rx_byte(A, b)`: a byte that finds the buffer full is dropped (41_transaction.md R124). -/
def State.pushRxByte (s : State) (b : Byte) : State :=
  if s.activeSlot.rxCnt < Config.rxCap then s.setActive (s.activeSlot.storeRx b)
  else s.invalidate .receiverOverrun

/-- The exception rule: five bytes have arrived and bit 7 of `rx[1]` is set (41_transaction.md R126). -/
def Slot.isShortException (t : Slot) : Bool := decide (5 ≤ t.rxCnt) && (t.rxByte 1).getLsbD 7

/-- `is_fully_received(t)` (41_transaction.md R126). -/
def Slot.isFullyReceived (t : Slot) : Bool :=
  (t.lenKnown && decide (t.expLen ≤ t.rxCnt)) || t.isShortException

/-- `check_rx_crc(t)` (41_transaction.md R128). -/
def Slot.checkRxCrc (t : Slot) : Bool := crcCheck t.rxFrame

end Sys2Proof.Machine
end

