-- ==== Sys2Proof/Machine/Queue.lean ====
section
/-! DEFINITION. The operations of the MessageQueue ring (42_message_queue.md); `size`, `full` and
`is_response_ready` stand with the derived status bits. -/

namespace Sys2Proof.Machine

/-- `enqueue(t)`, with `none` for the `false` of a full queue (42_message_queue.md R144). -/
def State.enqueue (s : State) (r : Request) : Option State :=
  if s.full then none
  else some { s.setSlot s.back (((s.slot s.back).overwrite r).mark .queued) with back := s.inc s.back }

/-- The loop of `available_to_send`: where `ACTIVE` comes to rest. Fuel N is enough, since `BACK` is reached within
N increments (42_message_queue.md R145). -/
def State.advanceFrom (s : State) : Nat → Bool → Nat → Nat
  | 0, _, a => a
  | fuel + 1, first, a =>
    if (s.slot a).life.isDone && (first || a != s.back) then s.advanceFrom fuel false (s.inc a) else a

/-- The advance of `ACTIVE` (42_message_queue.md R145). -/
def State.advance (s : State) : State := { s with active := s.advanceFrom s.n true s.active }

/-- The result of `available_to_send()`: after the advance `SLOT[ACTIVE]` is `queued` (42_message_queue.md R145). -/
def State.sendable (s : State) : Bool := s.advance.activeSlot.life == .queued

/-- The state after an `available_to_send()` that answers true: the claim (42_message_queue.md R145). -/
def State.claim (s : State) : State := s.advance.setActive (s.advance.activeSlot.mark .sent)

/-- The state after a successful `dequeue()`, which returns `FRONT` (42_message_queue.md R147). -/
def State.dequeueFront (s : State) : State :=
  { s.setSlot s.front ((s.slot s.front).mark .dequeued) with front := s.inc s.front }

end Sys2Proof.Machine
end

