-- ==== Sys2Proof/Machine/Control.lean ====
section
/-! DEFINITION. The control commands `DEQUEUE`, `QUEUE_RESET`, `CLEAR_COUNTERS` (46_control_ops.md) and the reset
event (70_reset_and_hazards.md). -/

namespace Sys2Proof.Machine

/-- `DEQUEUE` (46_control_ops.md R230). -/
def execDequeue (s : State) : Host.Outcome State Fault Refusal :=
  if s.responseReady then .next (s.dequeueFront.commandDone (resultOk (BitVec.ofNat 16 s.front)))
  else .next (s.rejectCommand .notReady)

/-- Every slot reset, and the three queue indices 0 (46_control_ops.md R232). -/
def State.clearQueue (s : State) : State :=
  { s with slots := s.slots.map Slot.reset, front := 0, back := 0, active := 0 }

/-- `QUEUE_RESET` (46_control_ops.md R232). -/
def execQueueReset (s : State) : Host.Outcome State Fault Refusal :=
  .next (({ s.clearQueue with txEn := false }.leave .idle).commandDone (resultOk 0))

/-- `CLEAR_COUNTERS` (46_control_ops.md R233). -/
def execClearCounters (s : State) : Host.Outcome State Fault Refusal :=
  .next ({ s with ctr := Vector.replicate 18 0 }.commandDone (resultOk 0))

/-- `RST`: the state becomes the reset state of 10_state.md R45, and the other inputs of the cycle are ignored
(70_reset_and_hazards.md R270). `TIME` runs on (R32, R263, R273; log 4); `WDATA` and the slot bytes are unspecified
afterwards, so they become free values (R271; logs 5 and 6). -/
def execRst (s : State) : Host.Outcome State Fault Refusal :=
  .next { State.resetWith s.params s.time with
    slots := s.slots.map Slot.reset
    wire := s.wire
    inputs := s.inputs
    resets := s.resets + 1
    staleReads := s.staleReads }

end Sys2Proof.Machine
end

