-- ==== Sys2Proof/Machine/Encoders.lean ====
section
/-! DEFINITION. The request encoders and the raw enqueue (44_pdu_encoders.md). -/

namespace Sys2Proof.Machine

/-- `encode_and_enqueue`, the common flow: bounds, then `load2`, then the queue (44_pdu_encoders.md R190). -/
def State.encodeAndEnqueue (s : State) (dev fc : Byte) (boundsOk : Bool) (p1 p2 : List Byte) (exp : Nat)
    (known : Bool) : State :=
  if boundsOk then
    match load2 dev fc p1 p2 exp known with
    | none => s.rejectCommand .bounds
    | some r =>
      match s.enqueue r with
      | none => s.rejectCommand .queueFull
      | some t => t.commandDone (resultOk 0)
  else s.rejectCommand .bounds

/-- A byte-count byte (44_pdu_encoders.md R199 to R201: at most 246). -/
def countByte (n : Nat) : Byte := BitVec.ofNat 8 n

/-- `read_coils` (44_pdu_encoders.md R191). -/
def execReadCoils (dev : Byte) (s : State) : Host.Outcome State Fault Refusal :=
  .next (s.encodeAndEnqueue dev 0x01 (inRange 1 2000 (s.arg 1)) (be16 (s.arg 0) ++ be16 (s.arg 1)) []
    (5 + ceil8 (s.arg 1).toNat) true)

/-- `read_discrete_inputs` (44_pdu_encoders.md R192). -/
def execReadDiscreteInputs (dev : Byte) (s : State) : Host.Outcome State Fault Refusal :=
  .next (s.encodeAndEnqueue dev 0x02 (inRange 1 2000 (s.arg 1)) (be16 (s.arg 0) ++ be16 (s.arg 1)) []
    (5 + ceil8 (s.arg 1).toNat) true)

/-- `read_holding_registers` (44_pdu_encoders.md R193). -/
def execReadHoldingRegisters (dev : Byte) (s : State) : Host.Outcome State Fault Refusal :=
  .next (s.encodeAndEnqueue dev 0x03 (inRange 1 125 (s.arg 1)) (be16 (s.arg 0) ++ be16 (s.arg 1)) []
    (5 + 2 * (s.arg 1).toNat) true)

/-- `read_input_registers` (44_pdu_encoders.md R194). -/
def execReadInputRegisters (dev : Byte) (s : State) : Host.Outcome State Fault Refusal :=
  .next (s.encodeAndEnqueue dev 0x04 (inRange 1 125 (s.arg 1)) (be16 (s.arg 0) ++ be16 (s.arg 1)) []
    (5 + 2 * (s.arg 1).toNat) true)

/-- The coil value of a `write_single_coil` operand: any non-zero operand means on (44_pdu_encoders.md R195). -/
def coilValue (v : Half) : Half := if v = 0 then 0x0000 else 0xFF00

/-- `write_single_coil` (44_pdu_encoders.md R195). -/
def execWriteSingleCoil (dev : Byte) (s : State) : Host.Outcome State Fault Refusal :=
  .next (s.encodeAndEnqueue dev 0x05 true (be16 (s.arg 0) ++ be16 (coilValue (s.arg 1))) [] 8 true)

/-- `write_single_register` (44_pdu_encoders.md R196). -/
def execWriteSingleRegister (dev : Byte) (s : State) : Host.Outcome State Fault Refusal :=
  .next (s.encodeAndEnqueue dev 0x06 true (be16 (s.arg 0) ++ be16 (s.arg 1)) [] 8 true)

/-- `diagnostics` (44_pdu_encoders.md R197). -/
def execDiagnostics (dev : Byte) (s : State) : Host.Outcome State Fault Refusal :=
  .next (s.encodeAndEnqueue dev 0x08 true (be16 (s.arg 0) ++ be16 (s.arg 1)) [] 8 true)

/-- `get_comm_event_counter` (44_pdu_encoders.md R198). -/
def execGetCommEventCounter (dev : Byte) (s : State) : Host.Outcome State Fault Refusal :=
  .next (s.encodeAndEnqueue dev 0x0B true [] [] 8 true)

/-- `write_multiple_coils` (44_pdu_encoders.md R199). -/
def execWriteMultipleCoils (dev : Byte) (s : State) : Host.Outcome State Fault Refusal :=
  .next (s.encodeAndEnqueue dev 0x0F (inRange 1 1968 (s.arg 1))
    (be16 (s.arg 0) ++ be16 (s.arg 1) ++ [countByte (ceil8 (s.arg 1).toNat)])
    (s.wdataPrefix (ceil8 (s.arg 1).toNat)) 8 true)

/-- `write_multiple_registers` (44_pdu_encoders.md R200). -/
def execWriteMultipleRegisters (dev : Byte) (s : State) : Host.Outcome State Fault Refusal :=
  .next (s.encodeAndEnqueue dev 0x10 (inRange 1 123 (s.arg 1))
    (be16 (s.arg 0) ++ be16 (s.arg 1) ++ [countByte (2 * (s.arg 1).toNat)])
    (s.wdataPrefix (2 * (s.arg 1).toNat)) 8 true)

/-- `read_write_multiple_registers` (44_pdu_encoders.md R201). -/
def execReadWriteMultipleRegisters (dev : Byte) (s : State) : Host.Outcome State Fault Refusal :=
  .next (s.encodeAndEnqueue dev 0x17 (inRange 1 125 (s.arg 1) && inRange 1 121 (s.arg 3))
    (be16 (s.arg 0) ++ be16 (s.arg 1) ++ be16 (s.arg 2) ++ be16 (s.arg 3) ++
      [countByte (2 * (s.arg 3).toNat)])
    (s.wdataPrefix (2 * (s.arg 3).toNat)) (5 + 2 * (s.arg 1).toNat) true)

/-- `ENQ_RAW`: function code in `ARG0[7:0]`, payload length in `ARG1`, expected length in `ARG2`, `len_known` in
`ARG3[0]` (44_pdu_encoders.md R202). -/
def execEnqRaw (dev : Byte) (s : State) : Host.Outcome State Fault Refusal :=
  .next (s.encodeAndEnqueue dev ((s.arg 0).extractLsb' 0 8) (inRange 0 Config.wdataCap (s.arg 1)) []
    (s.wdataPrefix (s.arg 1).toNat) (s.arg 2).toNat ((s.arg 3).getLsbD 0))

end Sys2Proof.Machine
end

