-- ==== Sys2Proof/Machine/Bus.lean ====
section
/-! DEFINITION. The host bus: the address map, the reading and writing of each location, `HRD` and `HWR`
(20_memory.md). -/

namespace Sys2Proof.Machine

/-- The four durations (10_state.md R36). -/
inductive Duration where
  | response
  | interchar
  | turnaround
  | interframe
deriving DecidableEq, Repr

/-- The locations of the host address map (20_memory.md R61, R69). -/
inductive Loc where
  | cmd
  | result
  | arg (k : Fin 5)
  | status
  | qstat
  | time
  | tmrStart
  | dur (d : Duration)
  | ctr (k : Fin 18)
  | wdata (k : Nat)
  | slotHdr0 (i : Nat)
  | slotHdr1 (i : Nat)
  | slotHdr2 (i : Nat)
  | slotTx (i k : Nat)
  | slotRx (i k : Nat)
deriving DecidableEq, Repr

/-- The word registers from 0x0000 to 0x003C (20_memory.md R61). -/
def locateRegister (a : Nat) : Option Loc :=
  if a = 0x0000 then some .cmd
  else if a = 0x0004 then some .result
  else if a = 0x0008 then some (.arg 0)
  else if a = 0x000C then some (.arg 1)
  else if a = 0x0010 then some (.arg 2)
  else if a = 0x0014 then some (.arg 3)
  else if a = 0x0018 then some (.arg 4)
  else if a = 0x001C then some .status
  else if a = 0x0020 then some .qstat
  else if a = 0x0024 then some .time
  else if a = 0x0028 then some .tmrStart
  else if a = 0x0030 then some (.dur .response)
  else if a = 0x0034 then some (.dur .interchar)
  else if a = 0x0038 then some (.dur .turnaround)
  else if a = 0x003C then some (.dur .interframe)
  else none

/-- The offsets of a slot window (20_memory.md R69). -/
def locateWindow (i off : Nat) : Option Loc :=
  if off = 0x000 then some (.slotHdr0 i)
  else if off = 0x004 then some (.slotHdr1 i)
  else if off = 0x008 then some (.slotHdr2 i)
  else if 0x100 ≤ off ∧ off < 0x200 then some (.slotTx i (off - 0x100))
  else if 0x200 ≤ off ∧ off < 0x300 then some (.slotRx i (off - 0x200))
  else none

/-- The location at a bus address of an engine with `n` slots; `none` is unmapped (20_memory.md R61, R69). -/
def locate (n : Nat) (addr : Word) : Option Loc :=
  let a := addr.toNat
  if a < 0x0040 then locateRegister a
  else if a < 0x0088 then
    if h : (a - 0x0040) / 4 < 18 then
      if a % 4 = 0 then some (.ctr ⟨(a - 0x0040) / 4, h⟩) else none
    else none
  else if wdataBase ≤ a ∧ a < wdataBase + Config.wdataCap then some (.wdata (a - wdataBase))
  else if 0x1000 ≤ a ∧ a < 0x1000 + 0x400 * n then locateWindow ((a - 0x1000) / 0x400) ((a - 0x1000) % 0x400)
  else none

/-- The size a location's row demands (20_memory.md R61, R64, R69). -/
def Loc.size : Loc → HSize
  | .cmd | .result | .arg _ | .status | .qstat | .time | .tmrStart | .dur _ | .ctr _
  | .slotHdr0 _ | .slotHdr1 _ | .slotHdr2 _ => .word
  | .wdata _ | .slotTx _ _ | .slotRx _ _ => .byte

/-- The location's row is marked RW or WO (20_memory.md R61, R64). -/
def Loc.isWritable : Loc → Bool
  | .cmd | .arg _ | .dur _ | .wdata _ => true
  | .result | .status | .qstat | .time | .tmrStart | .ctr _
  | .slotHdr0 _ | .slotHdr1 _ | .slotHdr2 _ | .slotTx _ _ | .slotRx _ _ => false

/-- The location of an access that is mapped and has the size its row demands (20_memory.md R64 (a) to (c)). -/
def State.access (s : State) (addr : Word) (size : HSize) : Option Loc :=
  (locate s.n addr).filter fun l => l.size == size

/-- The value of a duration register. -/
def State.durationReg (s : State) : Duration → Word
  | .response => s.durResponse
  | .interchar => s.durInterchar
  | .turnaround => s.durTurnaround
  | .interframe => s.durInterframe

/-- Write a duration register (20_memory.md R63). -/
def State.setDurationReg (s : State) (v : Word) : Duration → State
  | .response => { s with durResponse := v }
  | .interchar => { s with durInterchar := v }
  | .turnaround => { s with durTurnaround := v }
  | .interframe => { s with durInterframe := v }

/-- A byte on `HRDATA[7:0]`, with `HRDATA[31:8] = 0` (20_memory.md R62). -/
def byteData (b : Byte) : Word := b.setWidth 32

/-- The location holds an unspecified byte: `tx[k]` with `k >= tx_len`, or `rx[k]` with `k >= rx_cnt`
(20_memory.md R69). -/
def State.isStale (s : State) : Loc → Bool
  | .slotTx i k => decide ((s.slot i).txLen ≤ k)
  | .slotRx i k => decide ((s.slot i).rxCnt ≤ k)
  | .cmd | .result | .arg _ | .status | .qstat | .time | .tmrStart | .dur _ | .ctr _ | .wdata _
  | .slotHdr0 _ | .slotHdr1 _ | .slotHdr2 _ => false

/-- What a location that is not stale reads as (20_memory.md R61, R62, R69). -/
def State.readLoc (s : State) : Loc → Word
  | .cmd => 0
  | .result => s.result
  | .arg k => (s.arg k).setWidth 32
  | .status => s.statusWord
  | .qstat => s.qstatWord
  | .time => s.time
  | .tmrStart => s.tmrStart
  | .dur d => s.durationReg d
  | .ctr k => s.ctr[k]
  | .wdata k => byteData (s.wdataByte k)
  | .slotHdr0 i => (s.slot i).hdr0
  | .slotHdr1 i => (s.slot i).hdr1
  | .slotHdr2 i => (s.slot i).hdr2
  | .slotTx i k => byteData ((s.slot i).txByte k)
  | .slotRx i k => byteData ((s.slot i).rxByte k)

/-- A refused read: `HRDATA = 0`, `HERR = 1`, no state changes (20_memory.md R65). -/
def State.refuseRead (s : State) : State := { s with hrdata := some 0, herr := true }

/-- A refused write: `HERR = 1`, no state changes (20_memory.md R65). -/
def State.refuseWrite (s : State) : State := { s with herr := true }

/-- A legal read: the value on `HRDATA`, `HERR = 0`; an unspecified byte is a free value (20_memory.md R62, R69; log 6). -/
def State.readOut (s : State) (l : Loc) : State :=
  if s.isStale l then
    { s with hrdata := some (byteData (Config.staleByte s.staleReads)), herr := false,
             staleReads := s.staleReads + 1 }
  else { s with hrdata := some (s.readLoc l), herr := false }

/-- `HRD` (20_memory.md R62, R65). -/
def execHrd (addr : Word) (size : HSize) (s : State) : Host.Outcome State Fault Refusal :=
  match s.access addr size with
  | some l => .next (s.readOut l)
  | none => .next s.refuseRead

/-- Execute the command a legal opcode stands for (10_state.md R23). -/
def runOpcode (op : Opcode) (dev : Byte) (s : State) : Host.Outcome State Fault Refusal :=
  match op with
  | .readCoils => execReadCoils dev s
  | .readDiscreteInputs => execReadDiscreteInputs dev s
  | .readHoldingRegisters => execReadHoldingRegisters dev s
  | .readInputRegisters => execReadInputRegisters dev s
  | .writeSingleCoil => execWriteSingleCoil dev s
  | .writeSingleRegister => execWriteSingleRegister dev s
  | .diagnostics => execDiagnostics dev s
  | .getCommEventCounter => execGetCommEventCounter dev s
  | .writeMultipleCoils => execWriteMultipleCoils dev s
  | .writeMultipleRegisters => execWriteMultipleRegisters dev s
  | .readWriteMultipleRegisters => execReadWriteMultipleRegisters dev s
  | .enqRaw => execEnqRaw dev s
  | .dequeue => execDequeue s
  | .queueReset => execQueueReset s
  | .clearCounters => execClearCounters s
  | .crcGen => execCrcGen s
  | .crcChk => execCrcChk s

/-- A word write to `CMD`: the command, or a rejection with `ILLEGAL_OPCODE` (10_state.md R23, 30_encoding.md R86). -/
def runCommandWord (w : Word) (s : State) : Host.Outcome State Fault Refusal :=
  match decodeOpcode (wordOpcode w) with
  | some op => runOpcode op (wordDev w) s
  | none => .next (s.rejectCommand .illegalOpcode)

/-- A legal write with `HERR = 0` (20_memory.md R63). -/
def writeLoc (data : Word) (s : State) : Loc → Host.Outcome State Fault Refusal
  | .cmd => runCommandWord data s
  | .arg k => .next { s.setArg k (data.setWidth 16) with herr := false }
  | .dur d => .next { s.setDurationReg data d with herr := false }
  | .wdata k => .next { s.setWdata k (data.setWidth 8) with herr := false }
  | .result | .status | .qstat | .time | .tmrStart | .ctr _
  | .slotHdr0 _ | .slotHdr1 _ | .slotHdr2 _ | .slotTx _ _ | .slotRx _ _ => .next s.refuseWrite

/-- `HWR` (20_memory.md R63, R65). -/
def execHwr (addr : Word) (size : HSize) (data : Word) (s : State) : Host.Outcome State Fault Refusal :=
  match s.access addr size with
  | some l => writeLoc data s l
  | none => .next s.refuseWrite

end Sys2Proof.Machine
end

