-- ==== Sys2Proof/Machine/Validate.lean ====
section
/-! DEFINITION. Response validation, and the host's reading of a received frame (45_frame_parser.md). -/

namespace Sys2Proof.Machine

/-- The condition of `check_address` (45_frame_parser.md R221). -/
def Slot.wrongResponder (t : Slot) : Bool :=
  t.rxCnt == 0 || t.rxByte 0 != t.txByte 0 || t.txByte 0 == 0

/-- `check_address(A)` (45_frame_parser.md R221). -/
def State.checkAddress (s : State) : State :=
  s.invalidateIf s.activeSlot.wrongResponder .unexpectedResponder

/-- `check_crc(A)` (45_frame_parser.md R222). -/
def State.checkCrc (s : State) : State := s.invalidateIf (!s.activeSlot.checkRxCrc) .crcError

/-- The condition of `count_exception` (45_frame_parser.md R223). -/
def Slot.isCountedException (t : Slot) : Bool :=
  t.isValid && decide (3 ≤ t.rxCnt) && (t.rxByte 1).getLsbD 7

/-- The counter of an exception code, if it has one (45_frame_parser.md R223). -/
def exceptionCounter (code : Byte) : Option (Fin 18) :=
  if code = 0x01 then some 11
  else if code = 0x02 then some 12
  else if code = 0x07 then some 13
  else if code = 0x06 then some 14
  else none

/-- Increment a counter, if there is one. -/
def State.bumpOpt (s : State) : Option (Fin 18) → State
  | some k => s.bump k
  | none => s

/-- `count_exception(A)` (45_frame_parser.md R223). -/
def State.countException (s : State) : State :=
  if s.activeSlot.isCountedException then (s.bump 10).bumpOpt (exceptionCounter (s.activeSlot.rxByte 2)) else s

/-- `validate(A)`: the three steps always run, in this order, and the transaction is finished
(45_frame_parser.md R220). -/
def State.validate (s : State) : State := s.checkAddress.checkCrc.countException.markFinished

/-- `is_echo(t)`, evaluated by the host on a dequeued slot (45_frame_parser.md R224). -/
def Slot.isEcho (t : Slot) : Bool := t.isValid && t.rxCnt == t.txLen && t.rxFrame == t.txFrame

/-- `rx_address(t)` (45_frame_parser.md R225). -/
def Slot.rxAddress (t : Slot) : Option Byte := if 1 ≤ t.rxCnt then some (t.rxByte 0) else none

/-- `rx_function(t)` (45_frame_parser.md R225). -/
def Slot.rxFunction (t : Slot) : Option Byte := if 2 ≤ t.rxCnt then some (t.rxByte 1) else none

/-- `is_exception(t)` (45_frame_parser.md R225). -/
def Slot.isException (t : Slot) : Option Bool := t.rxFunction.map fun f => f.getLsbD 7

/-- `exception_code(t)` (45_frame_parser.md R225). -/
def Slot.exceptionCode (t : Slot) : Option Byte :=
  if 3 ≤ t.rxCnt ∧ t.isException = some true then some (t.rxByte 2) else none

/-- `rx_payload(t)` (45_frame_parser.md R225). -/
def Slot.rxPayload (t : Slot) : Option (List Byte) :=
  if 4 ≤ t.rxCnt then some ((t.rxFrame.drop 2).take (t.rxCnt - 4)) else none

/-- `rx_crc(t)` (45_frame_parser.md R225). -/
def Slot.rxCrc (t : Slot) : Option Half :=
  if 2 ≤ t.rxCnt then some (ofLoHi (t.rxByte (t.rxCnt - 2)) (t.rxByte (t.rxCnt - 1))) else none

/-- The response is to one of these function codes and is no exception. -/
def Slot.answers (t : Slot) (codes : List Byte) : Bool :=
  codes.contains (t.txByte 1) && t.isException == some false

/-- `rx_register(t, j)` (45_frame_parser.md R225). -/
def Slot.rxRegister (t : Slot) (j : Nat) : Option Half :=
  if t.answers [0x03, 0x04, 0x17] = true ∧ 5 + 2 * j + 2 ≤ t.rxCnt then
    some (ofLoHi (t.rxByte (4 + 2 * j)) (t.rxByte (3 + 2 * j)))
  else none

/-- `rx_bit(t, j)` (45_frame_parser.md R225). -/
def Slot.rxBit (t : Slot) (j : Nat) : Option Bool :=
  if t.answers [0x01, 0x02] = true ∧ 3 + j / 8 + 2 < t.rxCnt then
    some ((t.rxByte (3 + j / 8)).getLsbD (j % 8))
  else none

end Sys2Proof.Machine
end

