-- ==== Sys2Proof/Machine/Events.lean ====
section
/-! DEFINITION. The five port events (43_client_fsm_timer.md R161 to R173). -/

namespace Sys2Proof.Machine

/-- `wait_timer(t)` (43_client_fsm_timer.md R164). -/
def Slot.waitTimer (t : Slot) : Tmr := if t.txByte 0 = 0 then .turnaround else .response

/-- `TICK` (43_client_fsm_timer.md R161). -/
def execTick (s : State) : Host.Outcome State Fault Refusal := .next { s with time := s.time + 1 }

/-- The driver's error flags become validity bits, in bit order (43_client_fsm_timer.md R167, 60_exceptions.md R246). -/
def State.rxFlags (s : State) (e : BitVec 4) : State :=
  (((s.invalidateIf (e.getLsbD 0) .noise).invalidateIf (e.getLsbD 1) .framing).invalidateIf
    (e.getLsbD 2) .parity).invalidateIf (e.getLsbD 3) .receiverOverrun

/-- What follows a stored byte: the frame is complete and validated, or the inter-character timeout is armed
(43_client_fsm_timer.md R167). -/
def State.afterRxByte (s : State) : State :=
  if s.activeSlot.isFullyReceived then { (s.arm .interframe).validate with fsm := .idle }
  else s.arm .interchar

/-- `RX_BYTE(b, e)` (43_client_fsm_timer.md R167); outside `reception` the byte is only counted. -/
def execRxByte (b : Byte) (e : BitVec 4) (s : State) : Host.Outcome State Fault Refusal :=
  if s.fsm = .reception then .next (((s.bump 0).pushRxByte b).rxFlags e).afterRxByte
  else .next (s.bump 0)

/-- `TX_READY` (43_client_fsm_timer.md R166). -/
def execTxReady (s : State) : Host.Outcome State Fault Refusal :=
  if s.fsm = .emission then
    if s.activeSlot.isFullySent then
      .next { ({ s with txEn := false }).arm s.activeSlot.waitTimer with fsm := .reception }
    else
      .next (((s.setActive s.activeSlot.popTxByte).wireTx s.activeSlot.nextTxByte).bump 1)
  else .next { s with txEn := false }

/-- The response timer expired (43_client_fsm_timer.md R169). -/
def State.responseTimeout (s : State) : State := (s.invalidate .responseTimeout).markFinished.leave .idle

/-- The inter-character timer expired and the length is unknown: the normal end of the frame
(43_client_fsm_timer.md R170). -/
def State.endOfFrame (s : State) : State := { (s.arm .interframe).validate with fsm := .idle }

/-- The inter-character timer expired and the length is known (43_client_fsm_timer.md R171). -/
def State.intercharTimeout (s : State) : State :=
  (s.invalidate .intercharTimeout).markFinished.leave .ignoring

/-- The turnaround delay after a broadcast is over (43_client_fsm_timer.md R172). -/
def State.turnaroundOver (s : State) : State := s.markFinished.leave .idle

/-- What the expiry of the enabled timer does (43_client_fsm_timer.md R168, R173). -/
def State.onExpiry (s : State) : State :=
  match s.tmr with
  | .none => s
  | .response => s.responseTimeout
  | .interchar => if s.activeSlot.lenKnown then s.intercharTimeout else s.endOfFrame
  | .turnaround => s.turnaroundOver
  | .interframe => s

/-- `RUN_IN` (43_client_fsm_timer.md R168 to R173). -/
def execRunIn (s : State) : Host.Outcome State Fault Refusal :=
  .next (if s.expired then s.onExpiry else s)

/-- The gate of `RUN_OUT` (43_client_fsm_timer.md R165). -/
def State.gate (s : State) : Bool := s.tmr == .none || (s.tmr == .interframe && s.expired)

/-- The start of a claimed transaction's emission (43_client_fsm_timer.md R165). -/
def State.startEmission (s : State) : State :=
  { s.arm s.activeSlot.waitTimer with txEn := true, fsm := .emission }

/-- `RUN_OUT` (43_client_fsm_timer.md R165). -/
def execRunOut (s : State) : Host.Outcome State Fault Refusal :=
  if s.gate then
    if s.sendable then .next s.claim.startEmission
    else .next { s.advance with tmr := .none, fsm := .idle }
  else .next s

end Sys2Proof.Machine
end

