-- ==== Sys2Proof/Machine/Dispatch.lean ====
section
/-! DEFINITION. One arm per constructor of `Instr`, each one direct call of its meaning. -/

namespace Sys2Proof.Machine

def exec (i : Instr) (s : State) : Host.Outcome State Fault Refusal :=
  match i with
  | .readCoils dev => Sys2Proof.Machine.execReadCoils dev s
  | .readDiscreteInputs dev => Sys2Proof.Machine.execReadDiscreteInputs dev s
  | .readHoldingRegisters dev => Sys2Proof.Machine.execReadHoldingRegisters dev s
  | .readInputRegisters dev => Sys2Proof.Machine.execReadInputRegisters dev s
  | .writeSingleCoil dev => Sys2Proof.Machine.execWriteSingleCoil dev s
  | .writeSingleRegister dev => Sys2Proof.Machine.execWriteSingleRegister dev s
  | .diagnostics dev => Sys2Proof.Machine.execDiagnostics dev s
  | .getCommEventCounter dev => Sys2Proof.Machine.execGetCommEventCounter dev s
  | .writeMultipleCoils dev => Sys2Proof.Machine.execWriteMultipleCoils dev s
  | .writeMultipleRegisters dev => Sys2Proof.Machine.execWriteMultipleRegisters dev s
  | .readWriteMultipleRegisters dev => Sys2Proof.Machine.execReadWriteMultipleRegisters dev s
  | .enqRaw dev => Sys2Proof.Machine.execEnqRaw dev s
  | .dequeue => Sys2Proof.Machine.execDequeue s
  | .queueReset => Sys2Proof.Machine.execQueueReset s
  | .clearCounters => Sys2Proof.Machine.execClearCounters s
  | .crcGen => Sys2Proof.Machine.execCrcGen s
  | .crcChk => Sys2Proof.Machine.execCrcChk s
  | .tick => Sys2Proof.Machine.execTick s
  | .rxByte b e => Sys2Proof.Machine.execRxByte b e s
  | .txReady => Sys2Proof.Machine.execTxReady s
  | .runIn => Sys2Proof.Machine.execRunIn s
  | .runOut => Sys2Proof.Machine.execRunOut s
  | .hrd addr size => Sys2Proof.Machine.execHrd addr size s
  | .hwr addr size data => Sys2Proof.Machine.execHwr addr size data s
  | .rst => Sys2Proof.Machine.execRst s

end Sys2Proof.Machine
end

