-- ==== Sys2Proof/Machine/Step.lean ====
section
/-! DEFINITION. One step: the next operation of the one total order of all operations (20_memory.md R70). -/

namespace Sys2Proof.Machine

/-- Carry out the next operation: the first one left on the pins of the current clock cycle, or the first one of
the next cycle. A cycle always has one, since the poller's strobes are always set; pins without any would change
nothing. -/
def step (s : State) : Host.Outcome State Fault Refusal :=
  match decode s.fetch.pins with
  | .ok i => exec i s.fetch.consumed
  | .error _ => .next s.fetch

/-- `s` with the operation whose bits are `w`, as spec/opcode_table.json numbers them, on the pins, so that the
next step runs exactly it (log 7). -/
def State.withFetchWord (s : State) (nbits w : Nat) : State := { s with pins := PortIn.ofTableWord nbits w }

end Sys2Proof.Machine
end

