-- ==== Sys2Proof/Machine/HostLines.lean ====
section
/-! DEFINITION. Command lines of the host and their expansion into bus writes, one access a clock cycle
(30_encoding.md R95 to R97). A program is such a list, supplied in `State.inputs` (log 8). -/

namespace Sys2Proof.Machine

/-- One cycle with a host write. -/
def hostWrite (addr : Word) (size : HSize) (data : Word) : PortIn := encodeAccess true size addr data

/-- One cycle with a host read. -/
def hostRead (addr : Word) (size : HSize) : PortIn := encodeAccess false size addr 0

/-- The `WDATA` writes of a line's data bytes, from byte index `j` on (30_encoding.md R96). -/
def dataWrites : Nat → List Byte → List PortIn
  | _, [] => []
  | j, b :: bs => hostWrite (BitVec.ofNat 32 (wdataBase + j)) .byte (b.setWidth 32) :: dataWrites (j + 1) bs

/-- The `ARG` writes of a line's operands, from register `k` on (30_encoding.md R96). -/
def operandWrites : Nat → List Half → List PortIn
  | _, [] => []
  | k, v :: vs => hostWrite (BitVec.ofNat 32 (0x0008 + 4 * k)) .word (v.setWidth 32) :: operandWrites (k + 1) vs

/-- The first `ARG` register that a command's row of 30_encoding.md R82 reads: `CRC_GEN` and `CRC_CHK` have their one
operand in `ARG1`; every other command that has operands has them from `ARG0` on. -/
def firstOperand : Opcode → Nat
  | .crcGen | .crcChk => 1
  | .readCoils | .readDiscreteInputs | .readHoldingRegisters | .readInputRegisters | .writeSingleCoil
  | .writeSingleRegister | .diagnostics | .getCommEventCounter | .writeMultipleCoils | .writeMultipleRegisters
  | .readWriteMultipleRegisters | .enqRaw | .dequeue | .queueReset | .clearCounters => 0

/-- The expansion of a command line `m dev, a, ... ; b0 b1 ...` (30_encoding.md R96): its data bytes, then the operands
it gives and no others, in the order of R82, then the command. A line whose syntax has no `dev` (R95) writes 0 in its
place, which the command ignores (R81; log 8). -/
def commandLine (op : Opcode) (dev : Byte) (operands : List Half) (bytes : List Byte) : List PortIn :=
  dataWrites 0 bytes ++ operandWrites (firstOperand op) operands ++ [encode (op.toInstr dev)]

/-- The read of `RESULT` that follows a command line (30_encoding.md R96). -/
def resultRead : PortIn := hostRead 0x0004 .word

/-- `CRC_GEN L ; bytes` (30_encoding.md R95). -/
def crcGenLine (l : Half) (bytes : List Byte) : List PortIn := commandLine .crcGen 0 [l] bytes

/-- `CRC_CHK L ; bytes` (30_encoding.md R95). -/
def crcChkLine (l : Half) (bytes : List Byte) : List PortIn := commandLine .crcChk 0 [l] bytes

/-- `ping dev, data` is `diagnostics dev, 0x0000, data` (30_encoding.md R97). -/
def pingLine (dev : Byte) (data : Half) : List PortIn := commandLine .diagnostics dev [0x0000, data] []

/-- `enqueue_transaction dev, fc, P, exp, known ; bytes` is `ENQ_RAW` (30_encoding.md R97). -/
def enqueueTransactionLine (dev : Byte) (fc p exp known : Half) (bytes : List Byte) : List PortIn :=
  commandLine .enqRaw dev [fc, p, exp, known] bytes

/-- `write_coil_on dev, a` (30_encoding.md R97). -/
def writeCoilOnLine (dev : Byte) (a : Half) : List PortIn := commandLine .writeSingleCoil dev [a, 1] []

/-- `write_coil_off dev, a` (30_encoding.md R97). -/
def writeCoilOffLine (dev : Byte) (a : Half) : List PortIn := commandLine .writeSingleCoil dev [a, 0] []

/-- `broadcast m a0, ...` is `m 0, a0, ...` (30_encoding.md R97). -/
def broadcastLine (op : Opcode) (operands : List Half) (bytes : List Byte) : List PortIn :=
  commandLine op 0 operands bytes

/-- `poll` is `RUN_IN` then `RUN_OUT` (30_encoding.md R97): a cycle's strobes in that order. -/
def pollLine : PortIn := { evt := 0b11000 }

/-- `TICK n` (30_encoding.md R95): n cycles with `TICK`. -/
def tickLine (n : Nat) : List PortIn := List.replicate n { evt := 0b00001 }

/-- `RX_BYTE b, err` (30_encoding.md R95). -/
def rxByteLine (b : Byte) (err : BitVec 4) : PortIn := { evt := 0b00010, rxData := b, rxErr := err }

/-- `TX_READY` (30_encoding.md R95). -/
def txReadyLine : PortIn := { evt := 0b00100 }

end Sys2Proof.Machine
end

