-- ==== Sys2Proof/Safety.lean ====
section
/-! DEFINITION. The terms claims are stated in: well-formed states, the reachable-state invariants of
10_state.md R39 and R46, running a list of operations, and what an enqueuing command leaves. -/

namespace Sys2Proof.Machine

/-- The field widths of a slot (10_state.md R37, R39 (e)). -/
structure Slot.Wf (t : Slot) : Prop where
  txLen_le : t.txLen ≤ t.tx.length
  tx_le : t.tx.length ≤ Config.txCap
  txIdx_le : t.txIdx ≤ t.txLen
  rxCnt_le : t.rxCnt ≤ t.rx.length
  rx_le : t.rx.length ≤ Config.rxCap
  expLen_le : t.expLen ≤ Config.rxCap

/-- Every cell of the memory is a byte of `WDATA` (20_memory.md R61). -/
def Memory.inWdata (m : Memory) : Bool :=
  m.all fun c => decide (wdataBase ≤ c.1) && decide (c.1 < wdataBase + Config.wdataCap)

/-- The shape of a state: N slots, indices modulo N, field widths, the canonical form of memory
(10_state.md R20, R25, R37). -/
structure State.Wf (s : State) : Prop where
  params : s.params.wf = true
  slots : s.slots.length = s.n
  front : s.front < s.n
  back : s.back < s.n
  active : s.active < s.n
  slot : ∀ t ∈ s.slots, t.Wf
  mem : Memory.wf s.mem = true
  wdata : Memory.inWdata s.mem = true

/-- The lifecycle state of the slot `j` places after `FRONT`, going round the ring. -/
def State.ringLife (s : State) (j : Nat) : Life := (s.slot ((s.front + j) % s.n)).life

/-- How many places `ACTIVE` lies after `FRONT`. -/
def State.activeOffset (s : State) : Nat := (s.active + s.n - s.front) % s.n

/-- `ACTIVE` is a live slot: those before it are finished, those after it queued. -/
def State.ActiveLive (s : State) : Prop :=
  s.activeOffset < s.size ∧
  (∀ j, j < s.activeOffset → s.ringLife j = .finished) ∧
  (s.ringLife s.activeOffset = .finished ∨ s.ringLife s.activeOffset = .sent ∨
    s.ringLife s.activeOffset = .queued) ∧
  (∀ j, s.activeOffset < j → j < s.size → s.ringLife j = .queued)

/-- `ACTIVE` rests at `BACK`: every live slot is finished. -/
def State.ActiveAtBack (s : State) : Prop :=
  s.active = s.back ∧ ∀ j, j < s.size → s.ringLife j = .finished

/-- `ACTIVE` lags one behind `FRONT`, on the slot dequeued last: every live slot is queued. -/
def State.ActiveLagging (s : State) : Prop :=
  s.activeOffset = s.n - 1 ∧ s.activeSlot.life = .dequeued ∧ ∀ j, j < s.size → s.ringLife j = .queued

/-- The state of the ring (10_state.md R39 (a) to (d), in the form every operation keeps): where `ACTIVE` is, and that
outside the live range the slots from `BACK` on are first unused, then dequeued. -/
structure State.Ring (s : State) : Prop where
  position : s.ActiveLive ∨ s.ActiveAtBack ∨ s.ActiveLagging
  outside : ∀ j, s.size ≤ j → j < s.n → s.ringLife j = .unused ∨ s.ringLife j = .dequeued
  order : ∀ i j, s.size ≤ i → i ≤ j → j < s.n → s.ringLife i = .dequeued → s.ringLife j = .dequeued

/-- `FSM` is `emission` or `reception`: a transaction is in flight. -/
def State.inFlight (s : State) : Bool := s.fsm == .emission || s.fsm == .reception

/-- Which timer purposes go with which `FSM` value (10_state.md R46). -/
def timerFits : Fsm → Tmr → Bool
  | .initial, k => k == .none
  | .idle, k => k == .none || k == .interframe
  | .emission, k => k == .response || k == .turnaround
  | .reception, k => k == .response || k == .turnaround || k == .interchar
  | .ignoring, k => k == .interframe

/-- The relation of `FSM`, `TMR` and the active slot (10_state.md R46), with what the running timer says of the
active transaction. -/
structure State.Sequenced (s : State) : Prop where
  timer : timerFits s.fsm s.tmr = true
  sent : s.inFlight = true → s.activeSlot.life = .sent
  only : s.activeSlot.life = .sent → s.inFlight = true
  interchar : s.tmr = .interchar → 0 < s.activeSlot.rxCnt
  turnaround : s.tmr = .turnaround → s.activeSlot.txByte 0 = 0
  silent : s.tmr = .response ∨ s.tmr = .turnaround → s.activeSlot.rxCnt = 0 ∧ s.activeSlot.validMask = 0

/-- What holds of every transaction: once loaded it has a frame of at least four bytes that ends with its CRC
(10_state.md R39 (e), 41_transaction.md R134), and it finishes for a reason (R39 (f)). -/
structure Slot.Record (t : Slot) : Prop where
  loaded : t.life ≠ .unused → 4 ≤ t.txLen
  checked : t.life ≠ .unused → crcCheck t.txFrame = true
  fresh : t.life = .queued → t.txIdx = 0 ∧ t.rxCnt = 0 ∧ t.validMask = 0
  reason : t.life.isDone = true → 0 < t.rxCnt ∨ t.validMask ≠ 0 ∨ t.txByte 0 = 0

/-- The invariant of the engine. -/
structure State.Inv (s : State) : Prop where
  wf : s.Wf
  ring : s.Ring
  seq : s.Sequenced
  records : ∀ t ∈ s.slots, t.Record

/-- The reachable-state invariants of the store as the spec lists them (10_state.md R39). -/
structure State.StoreInvariants (s : State) : Prop where
  /-- (a) Going round the ring: finished, then at most one sent, then queued. -/
  a : ∃ f g, f ≤ g ∧ g ≤ f + 1 ∧ g ≤ s.size ∧ (∀ j, j < f → s.ringLife j = .finished) ∧
    (∀ j, f ≤ j → j < g → s.ringLife j = .sent) ∧ (∀ j, g ≤ j → j < s.size → s.ringLife j = .queued)
  /-- (b) Outside the live range: unused or dequeued. -/
  b : ∀ j, s.size ≤ j → j < s.n → s.ringLife j = .unused ∨ s.ringLife j = .dequeued
  /-- (c) A sent slot is `SLOT[ACTIVE]`. -/
  c : ∀ i, i < s.n → (s.slot i).life = .sent → i = s.active
  /-- (d) `ACTIVE` is live, or `BACK`, or lags one behind `FRONT`. -/
  d : s.activeOffset < s.size ∨ s.active = s.back ∨ (s.active + 1) % s.n = s.front
  /-- (e) The counts of every slot. -/
  e : ∀ i, i < s.n → (s.slot i).txIdx ≤ (s.slot i).txLen ∧ (s.slot i).txLen ≤ 256 ∧ (s.slot i).rxCnt ≤ 256 ∧
    ((s.slot i).life ≠ .unused → 4 ≤ (s.slot i).txLen)
  /-- (f) A transaction finishes by receiving bytes, by an anomaly, or by a broadcast's turnaround. -/
  f : ∀ i, i < s.n → (s.slot i).life = .finished ∨ (s.slot i).life = .dequeued →
    0 < (s.slot i).rxCnt ∨ (s.slot i).validMask ≠ 0 ∨ (s.slot i).txByte 0 = 0

/-- The relation of `FSM` and `TMR` as the spec lists it (10_state.md R46). -/
structure State.TimerRelation (s : State) : Prop where
  initial : s.fsm = .initial → s.tmr = .none
  emission : s.fsm = .emission → s.tmr = .response ∨ s.tmr = .turnaround
  reception : s.fsm = .reception → s.tmr = .response ∨ s.tmr = .turnaround ∨ s.tmr = .interchar
  ignoring : s.fsm = .ignoring → s.tmr = .interframe
  idle : s.fsm = .idle → s.tmr = .none ∨ s.tmr = .interframe
  interframe : s.tmr = .interframe → s.fsm = .idle ∨ s.fsm = .ignoring
  sent : s.fsm = .emission ∨ s.fsm = .reception → s.activeSlot.life = .sent

/-- The reset state for the parameters `p` (10_state.md R45; outputs: 70_reset_and_hazards.md R270). -/
structure AfterReset (p : Params) (t : State) : Prop where
  args : ∀ k, t.arg k = 0
  result : t.result = 0
  fsm : t.fsm = .initial
  front : t.front = 0
  back : t.back = 0
  active : t.active = 0
  count : t.slots.length = p.n
  life : ∀ i, (t.slot i).life = .unused
  validMask : ∀ i, (t.slot i).validMask = 0
  lengths : ∀ i, (t.slot i).txLen = 0 ∧ (t.slot i).txIdx = 0 ∧ (t.slot i).rxCnt = 0 ∧ (t.slot i).expLen = 0 ∧
    (t.slot i).lenKnown = false
  tmr : t.tmr = .none
  tmrStart : t.tmrStart = 0
  durResponse : t.durResponse = p.durResponse
  durInterchar : t.durInterchar = p.durInterchar
  durTurnaround : t.durTurnaround = p.durTurnaround
  durInterframe : t.durInterframe = p.durInterframe
  ctr : ∀ k : Fin 18, t.ctr[k] = 0
  txEn : t.txEn = false
  irqResp : t.irqResp = false
  herr : t.herr = false
  txOut : t.txOut = none
  hrdata : t.hrdata = some 0

/-- Carry out a list of operations, one after the other. -/
def execAll : List Instr → State → Host.Outcome State Fault Refusal
  | [], s => .next s
  | i :: is, s =>
    match exec i s with
    | .next t => execAll is t
    | .fault r => .fault r
    | .refused r => .refused r

/-- The operation is one of the 17 host commands. -/
def isCommand : Instr → Bool
  | .readCoils _ | .readDiscreteInputs _ | .readHoldingRegisters _ | .readInputRegisters _
  | .writeSingleCoil _ | .writeSingleRegister _ | .diagnostics _ | .getCommEventCounter _
  | .writeMultipleCoils _ | .writeMultipleRegisters _ | .readWriteMultipleRegisters _ | .enqRaw _
  | .dequeue | .queueReset | .clearCounters | .crcGen | .crcChk => true
  | .tick | .rxByte _ _ | .txReady | .runIn | .runOut | .hrd _ _ | .hwr _ _ _ | .rst => false

/-- The operation is one of the five port events (00_scope.md R5). -/
def isEvent : Instr → Bool
  | .tick | .rxByte _ _ | .txReady | .runIn | .runOut => true
  | .readCoils _ | .readDiscreteInputs _ | .readHoldingRegisters _ | .readInputRegisters _
  | .writeSingleCoil _ | .writeSingleRegister _ | .diagnostics _ | .getCommEventCounter _
  | .writeMultipleCoils _ | .writeMultipleRegisters _ | .readWriteMultipleRegisters _ | .enqRaw _
  | .dequeue | .queueReset | .clearCounters | .crcGen | .crcChk
  | .hrd _ _ | .hwr _ _ _ | .rst => false

/-- The operation loads a slot: one of the eleven encoders or `ENQ_RAW`. -/
def isEnqueue : Instr → Bool
  | .readCoils _ | .readDiscreteInputs _ | .readHoldingRegisters _ | .readInputRegisters _
  | .writeSingleCoil _ | .writeSingleRegister _ | .diagnostics _ | .getCommEventCounter _
  | .writeMultipleCoils _ | .writeMultipleRegisters _ | .readWriteMultipleRegisters _ | .enqRaw _ => true
  | .dequeue | .queueReset | .clearCounters | .crcGen | .crcChk
  | .tick | .rxByte _ _ | .txReady | .runIn | .runOut | .hrd _ _ | .hwr _ _ _ | .rst => false

/-- `t` is `s` after a command that was rejected with `result`: `RESULT` is written, the write that issued the command
was legal (`HERR` = 0), and nothing else changes (30_encoding.md R85). -/
structure Rejected (s t : State) (result : Word) : Prop where
  result : t.result = result
  herr : t.herr = false
  frame : { t with result := s.result, herr := s.herr } = s

/-- `t` is `s` after a command that enqueued the given frame: `SLOT[BACK]` holds it, freshly loaded and `queued`,
`BACK` is advanced, `RESULT` is 0x00000001, and nothing else changes, no other byte of any slot among it
(44_pdu_encoders.md R190, 42_message_queue.md R144). -/
structure Enqueued (s t : State) (frame : List Byte) (expLen : Nat) (lenKnown : Bool) : Prop where
  result : t.result = 0x00000001
  herr : t.herr = false
  back : t.back = (s.back + 1) % s.n
  txFrame : (t.slot s.back).txFrame = frame
  txLen : (t.slot s.back).txLen = frame.length
  txIdx : (t.slot s.back).txIdx = 0
  rxCnt : (t.slot s.back).rxCnt = 0
  expLen : (t.slot s.back).expLen = expLen
  lenKnown : (t.slot s.back).lenKnown = lenKnown
  life : (t.slot s.back).life = .queued
  validMask : (t.slot s.back).validMask = 0
  oldTx : ∀ k, frame.length ≤ k → (t.slot s.back).txByte k = (s.slot s.back).txByte k
  oldRx : ∀ k, (t.slot s.back).rxByte k = (s.slot s.back).rxByte k
  others : ∀ j, j ≠ s.back → t.slot j = s.slot j
  wdata : ∀ k, t.wdataByte k = s.wdataByte k
  frame : { t with result := s.result, herr := s.herr, back := s.back, slots := s.slots } = s

/-- The high byte of a 16-bit value. -/
def hiByte (v : Half) : Byte := v.extractLsb' 8 8

/-- The low byte of a 16-bit value. -/
def loByte (v : Half) : Byte := v.extractLsb' 0 8

/-- Bytes followed by their CRC, low byte first (40_crc16.md R116). -/
def withCrc (bytes : List Byte) : List Byte :=
  bytes ++ [loByte (crcGenerate bytes), hiByte (crcGenerate bytes)]

/-- The queue has no room: one slot is reserved (42_message_queue.md R143). -/
def State.noRoom (s : State) : Prop := (s.back + 1) % s.n = s.front

/-- What an enqueuing command does (44_pdu_encoders.md R190): it is rejected with `BOUNDS` if its operands are out
of bounds, else with `QUEUE_FULL` if the queue has no room, and else it enqueues the given frame. -/
structure Encodes (s : State) (i : Instr) (inBounds : Prop) (frame : List Byte) (expLen : Nat) (lenKnown : Bool) :
    Prop where
  bounds : ¬ inBounds → ∃ t, exec i s = .next t ∧ Rejected s t 0x00000100
  full : inBounds → s.noRoom → ∃ t, exec i s = .next t ∧ Rejected s t 0x00000200
  enqueues : inBounds → ¬ s.noRoom → ∃ t, exec i s = .next t ∧ Enqueued s t frame expLen lenKnown

/-- `t` is `s` with the record of the active transaction replaced; no other slot differs. -/
structure ActiveBecomes (s t : State) (A : Slot) : Prop where
  active : t.slot s.active = A
  others : ∀ j, j ≠ s.active → t.slot j = s.slot j

/-- Exactly the counters that `k` selects were incremented, once each, saturating (10_state.md R41). -/
def CountedOnce (before after : Vector Word 18) (k : Fin 18 → Prop) : Prop :=
  ∀ j : Fin 18, (k j → after[j] = satInc before[j]) ∧ (¬ k j → after[j] = before[j])

/-- The condition of `UNEXPECTED_RESPONDER` (45_frame_parser.md R221). -/
def Slot.badAddress (A : Slot) : Prop := A.rxCnt = 0 ∨ A.rxByte 0 ≠ A.txByte 0 ∨ A.txByte 0 = 0

/-- The condition of `CRC_ERROR` (45_frame_parser.md R222). -/
def Slot.badCrc (A : Slot) : Prop := crcCheck A.rxFrame = false

/-- The condition under which an exception response is counted (45_frame_parser.md R223). -/
def Slot.countsException (A : Slot) : Prop :=
  A.validMask = 0 ∧ ¬ A.badAddress ∧ ¬ A.badCrc ∧ 3 ≤ A.rxCnt ∧ (A.rxByte 1).getLsbD 7 = true

/-- `t` is `s` after validation of the active transaction, whose record on entry is `A`: the mask bits and counters of
45_frame_parser.md R221 to R223, and `finished` (R220). -/
structure Validated (s : State) (A : Slot) (t : State) : Prop where
  mask : ∃ m : Byte, (A.badAddress → m &&& 0x20 = 0x20) ∧ (¬ A.badAddress → m &&& 0x20 = 0) ∧
    (A.badCrc → m &&& 0x40 = 0x40) ∧ (¬ A.badCrc → m &&& 0x40 = 0) ∧ m &&& 0x9F = 0 ∧
    ActiveBecomes s t { A with validMask := A.validMask ||| m, life := .finished }
  counted : CountedOnce s.ctr t.ctr fun j =>
    j = 3 ∧ A.badAddress ∨ j = 2 ∧ A.badCrc ∨
    A.countsException ∧ (j = 10 ∨ j = 11 ∧ A.rxByte 2 = 0x01 ∨ j = 12 ∧ A.rxByte 2 = 0x02 ∨
      j = 13 ∧ A.rxByte 2 = 0x07 ∨ j = 14 ∧ A.rxByte 2 = 0x06)

/-- The record of the active transaction after `RX_BYTE(b, e)` has stored its byte and its error flags
(41_transaction.md R124, 43_client_fsm_timer.md R167). -/
structure Received (A : Slot) (b : Byte) (e : BitVec 4) (A' : Slot) : Prop where
  count : A'.rxCnt = min (A.rxCnt + 1) 256
  stored : A.rxCnt < 256 → A'.rxByte A.rxCnt = b
  kept : ∀ j, j ≠ A.rxCnt ∨ 256 ≤ A.rxCnt → A'.rxByte j = A.rxByte j
  mask : A'.validMask = A.validMask ||| e.setWidth 8 ||| (if A.rxCnt < 256 then 0x00 else 0x08)
  frame : { A' with rx := A.rx, rxCnt := A.rxCnt, validMask := A.validMask } = A

/-- The counters after `RX_BYTE(b, e)` has stored its byte and its error flags: `BYTES_IN`, one counter for each
flag, and `RECEIVER_OVERRUN` once more for a byte that found the buffer full. -/
def receptionCounted (A : Slot) (e : BitVec 4) (before after : Vector Word 18) : Prop :=
  (∀ j : Fin 18, j ≠ 9 →
    (j = 0 ∨ j = 6 ∧ e.getLsbD 0 = true ∨ j = 7 ∧ e.getLsbD 1 = true ∨ j = 8 ∧ e.getLsbD 2 = true →
      after[j] = satInc before[j]) ∧
    (¬ (j = 0 ∨ j = 6 ∧ e.getLsbD 0 = true ∨ j = 7 ∧ e.getLsbD 1 = true ∨ j = 8 ∧ e.getLsbD 2 = true) →
      after[j] = before[j])) ∧
  (e.getLsbD 3 = true → 256 ≤ A.rxCnt → after[9] = satInc (satInc before[9])) ∧
  (e.getLsbD 3 = true → A.rxCnt < 256 → after[9] = satInc before[9]) ∧
  (e.getLsbD 3 = false → 256 ≤ A.rxCnt → after[9] = satInc before[9]) ∧
  (e.getLsbD 3 = false → A.rxCnt < 256 → after[9] = before[9])

/-- With one byte more the frame is fully received (41_transaction.md R126). -/
def Slot.completesNext (A : Slot) : Prop :=
  A.lenKnown = true ∧ A.expLen ≤ min (A.rxCnt + 1) 256 ∨ 5 ≤ min (A.rxCnt + 1) 256 ∧ (A.rxByte 1).getLsbD 7 = true

/-- The timer purpose of a request: turnaround after a broadcast, else response (43_client_fsm_timer.md R164). -/
def Slot.waitPurpose (A : Slot) : Tmr := if A.txByte 0 = 0 then .turnaround else .response

/-- The slot `j` places after `FRONT` is the oldest one not finished, and it is queued. -/
def State.NextToSend (s : State) (j : Nat) : Prop :=
  j < s.size ∧ s.ringLife j = .queued ∧ ∀ i, i < j → s.ringLife i = .finished

/-- The slot `j` places after `FRONT` is the oldest one not finished. -/
def State.OldestUnfinished (s : State) (j : Nat) : Prop :=
  j < s.size ∧ s.ringLife j ≠ .finished ∧ ∀ i, i < j → s.ringLife i = .finished

/-- What `available_to_send()` does in a reachable state (42_message_queue.md R145): where `ACTIVE` comes to rest, the
answer, the claim, and what it leaves alone. -/
structure State.AvailableToSend (s : State) : Prop where
  onlyActive : { s.advance with active := s.active } = s
  atUnfinished : ∀ j, s.OldestUnfinished j → s.advance.active = (s.front + j) % s.n
  atBack : (∀ j, j < s.size → s.ringLife j = .finished) → s.advance.active = s.back
  answer : s.sendable = true ↔ ∃ j, s.NextToSend j
  claims : s.sendable = true →
    ActiveBecomes s.advance s.claim { s.advance.activeSlot with life := .sent } ∧
    { s.claim with active := s.active, slots := s.slots } = s
  inFlight : s.activeSlot.life = .sent → s.advance = s ∧ s.sendable = false
  settles : s.sendable = false → s.advance.sendable = false ∧ s.advance.advance = s.advance

/-- `m` clock cycles in which the driver only counts time and the host does nothing. -/
def silence (m : Nat) : List Instr := (List.replicate m [Instr.tick, .runIn, .runOut]).flatten

/-- A read answers with this data, and changes nothing but the bus outputs (20_memory.md R62). -/
def ReadsAs (s : State) (addr : Word) (size : HSize) (data : Word) : Prop :=
  exec (.hrd addr size) s = .next { s with hrdata := some data, herr := false }

/-- `d` counts of `TIME` have passed since the timer was armed (43_client_fsm_timer.md R163). -/
def State.passed (s : State) (d : Word) : Prop := d.toNat ≤ (s.time - s.tmrStart).toNat

/-- The gate of `RUN_OUT` (43_client_fsm_timer.md R165). -/
def State.gateOpen (s : State) : Prop := s.tmr = .none ∨ (s.tmr = .interframe ∧ s.passed s.durInterframe)

/-- The word locations of the bus map (20_memory.md R61, R69). -/
def wordMapped (n a : Nat) : Prop :=
  a ∈ [0x00, 0x04, 0x08, 0x0C, 0x10, 0x14, 0x18, 0x1C, 0x20, 0x24, 0x28, 0x30, 0x34, 0x38, 0x3C] ∨
  (∃ k, k < 18 ∧ a = 0x40 + 4 * k) ∨
  (∃ i, i < n ∧ (a = 0x1000 + 0x400 * i ∨ a = 0x1000 + 0x400 * i + 4 ∨ a = 0x1000 + 0x400 * i + 8))

/-- The byte locations of the bus map (20_memory.md R61, R69). -/
def byteMapped (n a : Nat) : Prop :=
  (0x100 ≤ a ∧ a ≤ 0x1FB) ∨
  (∃ i k, i < n ∧ k < 256 ∧ (a = 0x1000 + 0x400 * i + 0x100 + k ∨ a = 0x1000 + 0x400 * i + 0x200 + k))

/-- The locations marked RW or WO (20_memory.md R61). -/
def writeMapped (a : Nat) : Prop :=
  a ∈ [0x00, 0x08, 0x0C, 0x10, 0x14, 0x18, 0x30, 0x34, 0x38, 0x3C] ∨ (0x100 ≤ a ∧ a ≤ 0x1FB)

/-- The location exists and the access has the size its row demands (20_memory.md R64 (a) to (c)). -/
def sizedMapped (n a : Nat) : HSize → Prop
  | .word => wordMapped n a
  | .byte => byteMapped n a

/-- All times of the state moved by the same amount. -/
def State.shiftTime (s : State) (d : Word) : State := { s with time := s.time + d, tmrStart := s.tmrStart + d }

end Sys2Proof.Machine
end

