-- ==== Sys2Proof/Certificates/Slice0/Obligations.lean ====
section
/-! DEFINITION. The statements for the provers. -/

open Sys2Proof Sys2Proof.Machine

/-! ### Reset and invariants -/

/-- 70_reset_and_hazards.md R270 and 10_state.md R45: `RST` overrides every other input of its cycle and leaves the
reset state, from every state; the power-on state is that state too, for every N and every initial `TIME`; the
parameters' values are those of the table. -/
def Obligations.ResetState : Prop :=
  (∀ p : PortIn, p.rst = true → decode p = .ok .rst ∧ consume p = {}) ∧
  (∀ s : State, s.Wf → ∃ t, exec .rst s = .next t ∧ AfterReset s.params t) ∧
  (∀ (p : Params) (time : Word), p.wf = true → AfterReset p (State.resetWith p time)) ∧
  Params.examples.durResponse = 50000 ∧ Params.examples.durInterchar = 8000 ∧
  Params.examples.durTurnaround = 500 ∧ Params.examples.durInterframe = 2000

/-- The invariant holds right after power-on, for every N, every four durations and every initial `TIME`
(N = 4 and `TIME` = 0 of `State.reset` are the model's choices, logs 1 and 3), whatever the inputs to come. -/
def Obligations.ResetMeetsInvariant : Prop :=
  (∀ (p : Params) (time : Word) (inputs : List PortIn), p.wf = true →
    State.Inv { State.resetWith p time with inputs := inputs }) ∧
  State.reset.Inv

/-- From every well-formed state a step leaves a well-formed state: N slots, indices below N, lengths and counts
within the buffers, memory in its canonical form and inside `WDATA` (10_state.md R20, R25, R37, R39 (e)). -/
def Obligations.EveryStepKeepsShape : Prop :=
  ∀ s t : State, s.Wf → step s = .next t → t.Wf

/-- From every state that meets the invariant a step leaves one that meets it, whatever the inputs are
(10_state.md R39, R46; 60_exceptions.md R260). -/
def Obligations.EveryStepKeepsInvariant : Prop :=
  ∀ s t : State, s.Inv → step s = .next t → t.Inv

/-- 10_state.md R39: the six invariants of the store hold in every state that any input sequence reaches. -/
def Obligations.ReachableStore : Prop :=
  ∀ (p : Params) (time : Word) (inputs : List PortIn) (k : Nat) (s : State), p.wf = true →
    Host.Core.run Sys2Proof.core k ({ State.resetWith p time with inputs := inputs } : State) = .next s →
    s.StoreInvariants

/-- 10_state.md R46: the relation of `FSM` and `TMR` holds in every state that any input sequence reaches. -/
def Obligations.ReachableTimer : Prop :=
  ∀ (p : Params) (time : Word) (inputs : List PortIn) (k : Nat) (s : State), p.wf = true →
    Host.Core.run Sys2Proof.core k ({ State.resetWith p time with inputs := inputs } : State) = .next s →
    s.TimerRelation

/-! ### Rules about every operation -/

/-- No operation blocks, faults or is refused, in any state at all (00_scope.md R11, R15; 60_exceptions.md R252). -/
def Obligations.EveryOperationCompletes : Prop :=
  (∀ (i : Instr) (s : State), ∃ t, exec i s = .next t) ∧ ∀ s : State, ∃ t, step s = .next t

/-- `TICK` advances `TIME` by one, modulo 2^32, and nothing else does or changes it, no reset and no command among
them (10_state.md R32, 43_client_fsm_timer.md R161). That `RST` leaves `TIME` running is R32, R263 and R273 read
against the 'unspecified' of R45: log 4. -/
def Obligations.TimeMovesOnlyByTick : Prop :=
  (∀ s : State, exec .tick s = .next { s with time := s.time + 1 }) ∧
  (∀ s : State, ({ s with time := s.time + 1 } : State).time.toNat = (s.time.toNat + 1) % 2 ^ 32) ∧
  ∀ (i : Instr) (s t : State), i ≠ .tick → exec i s = .next t → t.time = s.time

/-- No operation but a read of `TIME` or `TMR_START` depends on the absolute value of `TIME`: move all times by the
same amount, and everything else comes out the same (10_state.md R32). The clause for `RST`, that `TIME` survives the
reset, is the model's reading (DEDUCED, log 4), not a rule of the spec. -/
def Obligations.TimeIsRelative : Prop :=
  ∀ (i : Instr) (s t : State) (d : Word), exec i s = .next t →
    (i ≠ .rst → (∀ z, i ≠ .hrd 0x24 z) → (∀ z, i ≠ .hrd 0x28 z) → exec i (s.shiftTime d) = .next (t.shiftTime d)) ∧
    (i = .rst → exec i (s.shiftTime d) = .next { t with time := t.time + d })

/-- Who may write what (10_state.md R21, R22, R24, R25, R28, R33, R34, R36, R41, R42; 60_exceptions.md R255): each
register and each kind of state is changed only by the operations the spec names for it. -/
def Obligations.WritersOfEachRegister : Prop :=
  ∀ (i : Instr) (s t : State), i.wf = true → exec i s = .next t →
    (t.args ≠ s.args → i = .rst ∨ ∃ a v, i = .hwr a .word v) ∧
    (t.result ≠ s.result → isCommand i = true ∨ i = .rst ∨ ∃ v, i = .hwr 0 .word v) ∧
    (t.fsm ≠ s.fsm → (∃ b e, i = .rxByte b e) ∨ i = .txReady ∨ i = .runIn ∨ i = .runOut ∨ i = .queueReset ∨ i = .rst) ∧
    (t.front ≠ s.front → i = .dequeue ∨ i = .queueReset ∨ i = .rst) ∧
    (t.back ≠ s.back → isEnqueue i = true ∨ i = .queueReset ∨ i = .rst) ∧
    (t.active ≠ s.active → i = .runOut ∨ i = .queueReset ∨ i = .rst) ∧
    (t.slots ≠ s.slots → isEnqueue i = true ∨ i = .dequeue ∨ i = .queueReset ∨ (∃ b e, i = .rxByte b e) ∨
      i = .txReady ∨ i = .runIn ∨ i = .runOut ∨ i = .rst) ∧
    (t.tmr ≠ s.tmr ∨ t.tmrStart ≠ s.tmrStart →
      (∃ b e, i = .rxByte b e) ∨ i = .txReady ∨ i = .runIn ∨ i = .runOut ∨ i = .queueReset ∨ i = .rst) ∧
    (t.durResponse ≠ s.durResponse ∨ t.durInterchar ≠ s.durInterchar ∨ t.durTurnaround ≠ s.durTurnaround ∨
      t.durInterframe ≠ s.durInterframe → i = .rst ∨ ∃ a v, i = .hwr a .word v) ∧
    (t.ctr ≠ s.ctr → (∃ b e, i = .rxByte b e) ∨ i = .txReady ∨ i = .runIn ∨ i = .clearCounters ∨ i = .rst) ∧
    (t.txEn ≠ s.txEn → i = .txReady ∨ i = .runOut ∨ i = .queueReset ∨ i = .rst) ∧
    (t.mem ≠ s.mem → i = .rst ∨ ∃ a v, i = .hwr a .byte v) ∧
    (t.wire ≠ s.wire → i = .txReady) ∧
    t.params = s.params ∧ t.inputs = s.inputs

/-- 41_transaction.md R134: once loaded, a request frame and its length stay as they are until the slot is loaded
again or reset; and a loaded frame always ends with its own CRC. -/
def Obligations.RequestIsImmutable : Prop :=
  (∀ (i : Instr) (s t : State) (k : Nat), i.wf = true → exec i s = .next t → i ≠ .queueReset → i ≠ .rst →
    ¬ (isEnqueue i = true ∧ t.back ≠ s.back ∧ k = s.back) →
    (t.slot k).txLen = (s.slot k).txLen ∧ ∀ j, (t.slot k).txByte j = (s.slot k).txByte j) ∧
  ∀ (dev fc : Byte) (p : List Byte) (exp : Nat) (known : Bool) (r : Request),
    load dev fc p exp known = some r → crcCheck r.frame = true

/-- 41_transaction.md R135: a validity bit that is set stays set until the slot is loaded again or reset. -/
def Obligations.ValidityIsMonotonic : Prop :=
  ∀ (i : Instr) (s t : State) (k b : Nat), i.wf = true → exec i s = .next t → i ≠ .queueReset → i ≠ .rst →
    ¬ (isEnqueue i = true ∧ t.back ≠ s.back ∧ k = s.back) →
    (s.slot k).validMask.getLsbD b = true → (t.slot k).validMask.getLsbD b = true

/-- 41_transaction.md R133: the lifecycle state of a slot moves one step along unused, queued, sent, finished,
dequeued (and from dequeued to queued by the overwriting enqueue), each step by its own operation, and back to
unused only by a full reset. -/
def Obligations.LifecycleProgress : Prop :=
  ∀ (i : Instr) (s t : State) (k : Nat), s.Inv → i.wf = true → exec i s = .next t →
    (t.slot k).life = (s.slot k).life ∨
    ((t.slot k).life = .unused ∧ (i = .queueReset ∨ i = .rst)) ∨
    (((s.slot k).life = .unused ∨ (s.slot k).life = .dequeued) ∧ (t.slot k).life = .queued ∧
      isEnqueue i = true ∧ k = s.back) ∨
    ((s.slot k).life = .queued ∧ (t.slot k).life = .sent ∧ i = .runOut) ∨
    ((s.slot k).life = .sent ∧ (t.slot k).life = .finished ∧ (i = .runIn ∨ ∃ b e, i = .rxByte b e)) ∨
    ((s.slot k).life = .finished ∧ (t.slot k).life = .dequeued ∧ i = .dequeue ∧ k = s.front)

/-- 10_state.md R41: an increment saturates at 2^32 - 1; reset and `CLEAR_COUNTERS` set all counters to 0; under every
other operation no counter ever goes down. -/
def Obligations.CountersOnlyGrow : Prop :=
  (∀ (s : State) (k : Fin 18), (s.bump k).ctr[k].toNat = min (s.ctr[k].toNat + 1) (2 ^ 32 - 1)) ∧
  (∀ (i : Instr) (s : State), i = .clearCounters ∨ i = .rst →
    ∃ t, exec i s = .next t ∧ ∀ k : Fin 18, t.ctr[k] = 0) ∧
  ∀ (i : Instr) (s t : State) (k : Fin 18), i.wf = true → i ≠ .clearCounters → i ≠ .rst → exec i s = .next t →
    s.ctr[k].toNat ≤ t.ctr[k].toNat

/-- 41_transaction.md R129: `invalidate` sets the anomaly's mask bit on the active transaction and increments its
counter, both together, and changes nothing else. -/
def Obligations.InvalidateJoins : Prop :=
  ∀ (s : State) (a : Anomaly) (m : Byte) (c : Fin 18), s.active < s.slots.length →
    (a, m, c) ∈ [(Anomaly.noise, (0x01 : Byte), (6 : Fin 18)), (.framing, 0x02, 7), (.parity, 0x04, 8),
      (.receiverOverrun, 0x08, 9), (.responseTimeout, 0x10, 4), (.unexpectedResponder, 0x20, 3),
      (.crcError, 0x40, 2), (.intercharTimeout, 0x80, 5)] →
    ActiveBecomes s (s.invalidate a) { s.activeSlot with validMask := s.activeSlot.validMask ||| m } ∧
    CountedOnce s.ctr (s.invalidate a).ctr (fun j => j = c) ∧
    { s.invalidate a with slots := s.slots, ctr := s.ctr } = s

/-! ### Decoding and the clock cycle -/

/-- Decode and encode agree, for every well-formed instruction with every operand, and the encoding asks for nothing
else; and what the decoder reads is well formed (30_encoding.md R80, R81, R87, R88). -/
def Obligations.DecodeEncode : Prop :=
  (∀ i : Instr, i.wf = true → decode (encode i) = .ok i ∧ consume (encode i) = {}) ∧
  ∀ (p : PortIn) (i : Instr), decode p = .ok i → i.wf = true

/-- 30_encoding.md R83: the 17 opcodes and nothing else are legal, whatever `dev` and bits 31:16 are, and each stands
for its command. -/
def Obligations.OpcodeMap : Prop :=
  (∀ w : Word, (∃ i, decodeCommand w = .ok i) ↔
    w.extractLsb' 0 8 ∈ [(0x01 : Byte), 0x02, 0x03, 0x04, 0x05, 0x06, 0x08, 0x0B, 0x0F, 0x10, 0x17,
      0x80, 0x81, 0x82, 0x83, 0x84, 0x85]) ∧
  ∀ (hi : BitVec 16) (dev : Byte),
    decodeCommand (hi ++ dev ++ (0x01 : Byte)) = .ok (.readCoils dev) ∧
    decodeCommand (hi ++ dev ++ (0x02 : Byte)) = .ok (.readDiscreteInputs dev) ∧
    decodeCommand (hi ++ dev ++ (0x03 : Byte)) = .ok (.readHoldingRegisters dev) ∧
    decodeCommand (hi ++ dev ++ (0x04 : Byte)) = .ok (.readInputRegisters dev) ∧
    decodeCommand (hi ++ dev ++ (0x05 : Byte)) = .ok (.writeSingleCoil dev) ∧
    decodeCommand (hi ++ dev ++ (0x06 : Byte)) = .ok (.writeSingleRegister dev) ∧
    decodeCommand (hi ++ dev ++ (0x08 : Byte)) = .ok (.diagnostics dev) ∧
    decodeCommand (hi ++ dev ++ (0x0B : Byte)) = .ok (.getCommEventCounter dev) ∧
    decodeCommand (hi ++ dev ++ (0x0F : Byte)) = .ok (.writeMultipleCoils dev) ∧
    decodeCommand (hi ++ dev ++ (0x10 : Byte)) = .ok (.writeMultipleRegisters dev) ∧
    decodeCommand (hi ++ dev ++ (0x17 : Byte)) = .ok (.readWriteMultipleRegisters dev) ∧
    decodeCommand (hi ++ dev ++ (0x80 : Byte)) = .ok (.enqRaw dev) ∧
    decodeCommand (hi ++ dev ++ (0x81 : Byte)) = .ok .dequeue ∧
    decodeCommand (hi ++ dev ++ (0x82 : Byte)) = .ok .queueReset ∧
    decodeCommand (hi ++ dev ++ (0x83 : Byte)) = .ok .clearCounters ∧
    decodeCommand (hi ++ dev ++ (0x84 : Byte)) = .ok .crcGen ∧
    decodeCommand (hi ++ dev ++ (0x85 : Byte)) = .ok .crcChk

/-- Words written out from the encodings decode to the instructions they stand for (30_encoding.md R81, R87, R96;
95_test_vectors.md part 2.2). The layout of the BUS word is the model's, log 10. -/
def Obligations.SampleWords : Prop :=
  decodeTableWord 32 0x00000103 = some (.readHoldingRegisters 1) ∧
  decodeTableWord 32 0x00002A80 = some (.enqRaw 0x2A) ∧
  decodeTableWord 32 0xFFFF0183 = some .clearCounters ∧
  decodeTableWord 32 0x00000007 = some (.hwr 0 .word 0x00000007) ∧
  decodeTableWord 8 0b00000001 = some .tick ∧
  decodeTableWord 8 0b00010000 = some .runOut ∧
  decodeTableWord 24 0x030702 = some (.rxByte 0x07 0x3) ∧
  decodeTableWord 72 0x050000000000000030 = some (.hrd 0x30 .word)

/-- A step runs the instruction that its input pins decode to: the first one left on the pins of the current cycle,
or, when none is left, the first of the next cycle, whose pins are sampled and whose outputs start quiet. The model's
choices: that a step is one operation (log 7), that the pins come from the list of inputs (log 8), and that the outputs
are cleared at the start of a cycle, `HRDATA` to nothing (log 9). -/
def Obligations.StepRunsDecoded : Prop :=
  (∀ (s : State) (i : Instr), s.pins.isQuiet = false → decode s.pins = .ok i →
    step s = exec i { s with pins := consume s.pins }) ∧
  (∀ (s : State) (i : Instr), s.pins.isQuiet = true → decode s.nextPins = .ok i →
    step s = exec i { s with pins := consume s.nextPins, inputs := s.inputs.tail, txOut := none, hrdata := none,
                             herr := false }) ∧
  (∀ (s : State) (i : Instr), i.wf = true → step { s with pins := encode i } = exec i { s with pins := {} })

/-- 43_client_fsm_timer.md R160: one clock cycle carries out the operations its inputs ask for, each on the state the
previous one left, in the order `TICK`, `RX_BYTE`, `TX_READY`, `RUN_IN`, `RUN_OUT`, host access; `RUN_IN` and
`RUN_OUT` in every cycle; with `RST` nothing else (70_reset_and_hazards.md R270). The model's choices: one step per
operation (log 7), the list of inputs and the poller in every cycle (logs 8 and 16), and the cycle's start with
`HRDATA` undriven and `HERR` 0 (log 9). -/
def Obligations.OneClockCycle : Prop :=
  ∀ (s : State) (p : PortIn), s.pins.isQuiet = true → s.inputs.headD {} = p →
    ∃ ops : List Instr,
      (p.rst = true → ops = [.rst]) ∧
      (p.rst = false → ops =
        (if p.evt.getLsbD 0 then [Instr.tick] else []) ++
        (if p.evt.getLsbD 1 then [.rxByte p.rxData p.rxErr] else []) ++
        (if p.evt.getLsbD 2 then [.txReady] else []) ++ [.runIn] ++ [.runOut] ++
        (if p.hsel then [decodeAccess p.hwrite p.hsize p.haddr p.hwdata] else [])) ∧
      Host.Core.run Sys2Proof.core ops.length s =
        execAll ops { s with pins := {}, inputs := s.inputs.tail, txOut := none, hrdata := none, herr := false }

/-! ### Commands -/

/-- 44_pdu_encoders.md R191, R192: `read_coils` and `read_discrete_inputs`. -/
def Obligations.BitReads : Prop :=
  ∀ (s : State) (dev : Byte), s.Wf →
    Encodes s (.readCoils dev) (1 ≤ (s.arg 1).toNat ∧ (s.arg 1).toNat ≤ 2000)
      (withCrc [dev, 0x01, hiByte (s.arg 0), loByte (s.arg 0), hiByte (s.arg 1), loByte (s.arg 1)])
      (5 + ((s.arg 1).toNat + 7) / 8) true ∧
    Encodes s (.readDiscreteInputs dev) (1 ≤ (s.arg 1).toNat ∧ (s.arg 1).toNat ≤ 2000)
      (withCrc [dev, 0x02, hiByte (s.arg 0), loByte (s.arg 0), hiByte (s.arg 1), loByte (s.arg 1)])
      (5 + ((s.arg 1).toNat + 7) / 8) true

/-- 44_pdu_encoders.md R193, R194: `read_holding_registers` and `read_input_registers`. -/
def Obligations.RegisterReads : Prop :=
  ∀ (s : State) (dev : Byte), s.Wf →
    Encodes s (.readHoldingRegisters dev) (1 ≤ (s.arg 1).toNat ∧ (s.arg 1).toNat ≤ 125)
      (withCrc [dev, 0x03, hiByte (s.arg 0), loByte (s.arg 0), hiByte (s.arg 1), loByte (s.arg 1)])
      (5 + 2 * (s.arg 1).toNat) true ∧
    Encodes s (.readInputRegisters dev) (1 ≤ (s.arg 1).toNat ∧ (s.arg 1).toNat ≤ 125)
      (withCrc [dev, 0x04, hiByte (s.arg 0), loByte (s.arg 0), hiByte (s.arg 1), loByte (s.arg 1)])
      (5 + 2 * (s.arg 1).toNat) true

/-- 44_pdu_encoders.md R195: `write_single_coil`; any non-zero operand means on. -/
def Obligations.SingleCoilWrite : Prop :=
  ∀ (s : State) (dev : Byte), s.Wf →
    (s.arg 1 = 0 → Encodes s (.writeSingleCoil dev) True
      (withCrc [dev, 0x05, hiByte (s.arg 0), loByte (s.arg 0), 0x00, 0x00]) 8 true) ∧
    (s.arg 1 ≠ 0 → Encodes s (.writeSingleCoil dev) True
      (withCrc [dev, 0x05, hiByte (s.arg 0), loByte (s.arg 0), 0xFF, 0x00]) 8 true)

/-- 44_pdu_encoders.md R196, R197, R198: `write_single_register`, `diagnostics`, `get_comm_event_counter`. -/
def Obligations.FixedRequests : Prop :=
  ∀ (s : State) (dev : Byte), s.Wf →
    Encodes s (.writeSingleRegister dev) True
      (withCrc [dev, 0x06, hiByte (s.arg 0), loByte (s.arg 0), hiByte (s.arg 1), loByte (s.arg 1)]) 8 true ∧
    Encodes s (.diagnostics dev) True
      (withCrc [dev, 0x08, hiByte (s.arg 0), loByte (s.arg 0), hiByte (s.arg 1), loByte (s.arg 1)]) 8 true ∧
    Encodes s (.getCommEventCounter dev) True (withCrc [dev, 0x0B]) 8 true

/-- 44_pdu_encoders.md R199, R200: `write_multiple_coils` and `write_multiple_registers`, whose data bytes are a prefix
of `WDATA`. -/
def Obligations.MultipleWrites : Prop :=
  ∀ (s : State) (dev : Byte), s.Wf →
    Encodes s (.writeMultipleCoils dev) (1 ≤ (s.arg 1).toNat ∧ (s.arg 1).toNat ≤ 1968)
      (withCrc ([dev, 0x0F, hiByte (s.arg 0), loByte (s.arg 0), hiByte (s.arg 1), loByte (s.arg 1),
          BitVec.ofNat 8 (((s.arg 1).toNat + 7) / 8)] ++
        (List.range (((s.arg 1).toNat + 7) / 8)).map s.wdataByte)) 8 true ∧
    Encodes s (.writeMultipleRegisters dev) (1 ≤ (s.arg 1).toNat ∧ (s.arg 1).toNat ≤ 123)
      (withCrc ([dev, 0x10, hiByte (s.arg 0), loByte (s.arg 0), hiByte (s.arg 1), loByte (s.arg 1),
          BitVec.ofNat 8 (2 * (s.arg 1).toNat)] ++
        (List.range (2 * (s.arg 1).toNat)).map s.wdataByte)) 8 true

/-- 44_pdu_encoders.md R201: `read_write_multiple_registers`. -/
def Obligations.ReadWriteRegisters : Prop :=
  ∀ (s : State) (dev : Byte), s.Wf →
    Encodes s (.readWriteMultipleRegisters dev)
      ((1 ≤ (s.arg 1).toNat ∧ (s.arg 1).toNat ≤ 125) ∧ 1 ≤ (s.arg 3).toNat ∧ (s.arg 3).toNat ≤ 121)
      (withCrc ([dev, 0x17, hiByte (s.arg 0), loByte (s.arg 0), hiByte (s.arg 1), loByte (s.arg 1),
          hiByte (s.arg 2), loByte (s.arg 2), hiByte (s.arg 3), loByte (s.arg 3),
          BitVec.ofNat 8 (2 * (s.arg 3).toNat)] ++
        (List.range (2 * (s.arg 3).toNat)).map s.wdataByte)) (5 + 2 * (s.arg 1).toNat) true

/-- 44_pdu_encoders.md R202: `ENQ_RAW`, with a known and with an unknown response length. -/
def Obligations.RawEnqueue : Prop :=
  ∀ (s : State) (dev : Byte), s.Wf →
    ((s.arg 3).getLsbD 0 = true → Encodes s (.enqRaw dev) ((s.arg 1).toNat ≤ 252 ∧ (s.arg 2).toNat ≤ 256)
      (withCrc ([dev, loByte (s.arg 0)] ++ (List.range (s.arg 1).toNat).map s.wdataByte)) (s.arg 2).toNat true) ∧
    ((s.arg 3).getLsbD 0 = false → Encodes s (.enqRaw dev) ((s.arg 1).toNat ≤ 252)
      (withCrc ([dev, loByte (s.arg 0)] ++ (List.range (s.arg 1).toNat).map s.wdataByte)) 0 false)

/-- An enqueuing command never overwrites a slot that is queued, sent or finished: the only slot whose record it changes
is the one at `BACK`, only when the queue has room, and that slot was unused or dequeued (42_message_queue.md R144,
10_state.md R39 (b)). -/
def Obligations.EnqueueSparesLiveSlots : Prop :=
  ∀ (i : Instr) (s t : State) (k : Nat), s.Inv → isEnqueue i = true → exec i s = .next t → t.slot k ≠ s.slot k →
    k = s.back ∧ ¬ s.noRoom ∧ ((s.slot k).life = .unused ∨ (s.slot k).life = .dequeued)

/-- 46_control_ops.md R230: `DEQUEUE`. -/
def Obligations.DequeueCommand : Prop :=
  ∀ s : State, s.Wf →
    (s.front ≠ s.back ∧ (s.slot s.front).life = .finished →
      ∃ t, exec .dequeue s = .next t ∧ t.result = (BitVec.ofNat 32 s.front <<< 16) ||| 1 ∧ t.herr = false ∧
        t.front = (s.front + 1) % s.n ∧ t.slot s.front = { s.slot s.front with life := .dequeued } ∧
        (∀ j, j ≠ s.front → t.slot j = s.slot j) ∧
        { t with result := s.result, herr := s.herr, front := s.front, slots := s.slots } = s) ∧
    (¬ (s.front ≠ s.back ∧ (s.slot s.front).life = .finished) →
      ∃ t, exec .dequeue s = .next t ∧ Rejected s t 0x00000400)

/-- 46_control_ops.md R232: `QUEUE_RESET`. -/
def Obligations.QueueResetCommand : Prop :=
  ∀ s : State, ∃ t, exec .queueReset s = .next t ∧
    t.result = 0x00000001 ∧ t.herr = false ∧ t.front = 0 ∧ t.back = 0 ∧ t.active = 0 ∧ t.txEn = false ∧
    t.fsm = .idle ∧ t.tmr = .interframe ∧ t.tmrStart = s.time ∧
    (∀ i, (t.slot i).life = .unused ∧ (t.slot i).validMask = 0 ∧ (t.slot i).txLen = 0 ∧ (t.slot i).txIdx = 0 ∧
      (t.slot i).rxCnt = 0 ∧ (t.slot i).expLen = 0 ∧ (t.slot i).lenKnown = false ∧
      (∀ k, (t.slot i).txByte k = (s.slot i).txByte k) ∧ ∀ k, (t.slot i).rxByte k = (s.slot i).rxByte k) ∧
    { t with result := s.result, herr := s.herr, front := s.front, back := s.back, active := s.active,
             txEn := s.txEn, fsm := s.fsm, tmr := s.tmr, tmrStart := s.tmrStart, slots := s.slots } = s

/-- 46_control_ops.md R233: `CLEAR_COUNTERS`. -/
def Obligations.ClearCountersCommand : Prop :=
  ∀ s : State, ∃ t, exec .clearCounters s = .next t ∧ t.result = 0x00000001 ∧ t.herr = false ∧
    (∀ k : Fin 18, t.ctr[k] = 0) ∧ { t with result := s.result, herr := s.herr, ctr := s.ctr } = s

/-- 40_crc16.md R118, R119: `CRC_GEN` and `CRC_CHK` write `RESULT` and nothing else. -/
def Obligations.CrcCommands : Prop :=
  ∀ s : State,
    (252 < (s.arg 1).toNat → ∃ t u, exec .crcGen s = .next t ∧ Rejected s t 0x00000100 ∧
      exec .crcChk s = .next u ∧ Rejected s u 0x00000100) ∧
    ((s.arg 1).toNat ≤ 252 →
      exec .crcGen s = .next { s with
        result := ((crcGenerate ((List.range (s.arg 1).toNat).map s.wdataByte)).setWidth 32 <<< 16) ||| 1
        herr := false } ∧
      (crcCheck ((List.range (s.arg 1).toNat).map s.wdataByte) = true →
        exec .crcChk s = .next { s with result := 0x00010001, herr := false }) ∧
      (crcCheck ((List.range (s.arg 1).toNat).map s.wdataByte) = false →
        exec .crcChk s = .next { s with result := 0x00000001, herr := false }))

/-- 40_crc16.md R112, R113: the printed table holds the bit-serial update of 0, and the table-driven update equals the
bit-serial one for every register and every byte. -/
def Obligations.TableDrivenCrc : Prop :=
  crcTable.length = 256 ∧
  (∀ i : Byte, crcTable.getD i.toNat 0 = crcUpdate 0 i) ∧
  ∀ (c : Half) (b : Byte), crcUpdateT c b = crcUpdate c b

/-- 40_crc16.md R115: what `crc_check` compares, and that every string followed by its CRC passes. -/
def Obligations.CrcRoundTrip : Prop :=
  (∀ s : List Byte, s.length < 2 → crcCheck s = false) ∧
  (∀ (s : List Byte) (lo hi : Byte), crcCheck (s ++ [lo, hi]) = true ↔
    (crcGenerate s).toNat = lo.toNat + 256 * hi.toNat) ∧
  ∀ s : List Byte, crcCheck (withCrc s) = true

/-- 40_crc16.md R117: a string of at least two bytes passes the check exactly when the CRC over all of it is 0. -/
def Obligations.CrcResidue : Prop :=
  ∀ s : List Byte, 2 ≤ s.length → (crcCheck s = true ↔ crcGenerate s = 0x0000)

/-! ### The host bus -/

/-- 10_state.md R23, 30_encoding.md R86: a word write to `CMD` executes the command its low byte selects, in that step;
an illegal opcode is rejected and changes nothing else; `CMD` reads as 0. -/
def Obligations.CommandWrite : Prop :=
  ∀ s : State,
    (∀ (w : Word) (i : Instr), decodeCommand w = .ok i → exec (.hwr 0 .word w) s = exec i s) ∧
    (∀ w : Word, w.extractLsb' 0 8 ∉ [(0x01 : Byte), 0x02, 0x03, 0x04, 0x05, 0x06, 0x08, 0x0B, 0x0F, 0x10, 0x17,
        0x80, 0x81, 0x82, 0x83, 0x84, 0x85] →
      ∃ t, exec (.hwr 0 .word w) s = .next t ∧ Rejected s t 0x00000300) ∧
    (∀ w w' : Word, w.extractLsb' 0 16 = w'.extractLsb' 0 16 → exec (.hwr 0 .word w) s = exec (.hwr 0 .word w') s) ∧
    ReadsAs s 0 .word 0

/-- What a read of each register returns (20_memory.md R61, R62): the register at that address, and nothing changes. -/
def Obligations.HostReads : Prop :=
  ∀ s : State,
    ReadsAs s 0x0004 .word s.result ∧
    (∀ k : Fin 5, ReadsAs s (BitVec.ofNat 32 (0x0008 + 4 * k.val)) .word ((s.arg k).setWidth 32)) ∧
    ReadsAs s 0x001C .word s.statusWord ∧
    ReadsAs s 0x0020 .word s.qstatWord ∧
    ReadsAs s 0x0024 .word s.time ∧
    ReadsAs s 0x0028 .word s.tmrStart ∧
    ReadsAs s 0x0030 .word s.durResponse ∧
    ReadsAs s 0x0034 .word s.durInterchar ∧
    ReadsAs s 0x0038 .word s.durTurnaround ∧
    ReadsAs s 0x003C .word s.durInterframe ∧
    (∀ k : Fin 18, ReadsAs s (BitVec.ofNat 32 (0x0040 + 4 * k.val)) .word s.ctr[k]) ∧
    (∀ k : Nat, k < 252 → ReadsAs s (BitVec.ofNat 32 (0x0100 + k)) .byte ((s.wdataByte k).setWidth 32))

/-- 10_state.md R30, R31: the fields of `STATUS` and `QSTAT`. -/
def Obligations.StatusLayout : Prop :=
  ∀ s : State, s.Wf →
    s.statusWord.extractLsb' 0 3 = (match s.fsm with
      | .initial => 0 | .idle => 1 | .emission => 2 | .reception => 3 | .ignoring => 4) ∧
    s.statusWord.extractLsb' 3 3 = (match s.tmr with
      | .none => 0 | .response => 1 | .interchar => 2 | .turnaround => 3 | .interframe => 4) ∧
    s.statusWord.getLsbD 6 = s.txEn ∧
    (s.statusWord.getLsbD 7 = true ↔ s.front ≠ s.back ∧ (s.slot s.front).life = .finished) ∧
    (s.statusWord.getLsbD 8 = true ↔ s.noRoom) ∧
    (s.statusWord.getLsbD 9 = true ↔ s.tmr ≠ .none ∧ s.passed (s.duration s.tmr)) ∧
    s.statusWord.extractLsb' 10 22 = 0 ∧
    (s.qstatWord.extractLsb' 0 8).toNat = s.front ∧
    (s.qstatWord.extractLsb' 8 8).toNat = s.back ∧
    (s.qstatWord.extractLsb' 16 8).toNat = s.active ∧
    (s.front + (s.qstatWord.extractLsb' 24 8).toNat) % s.n = s.back ∧ (s.qstatWord.extractLsb' 24 8).toNat < s.n

/-- 20_memory.md R69: the window of a slot. A byte beyond the lengths is unspecified, so it is a free value, and that its
read advances the counter `staleReads` is the model's choice (log 6). -/
def Obligations.SlotWindow : Prop :=
  ∀ (s : State) (i : Nat), s.Wf → i < s.n →
    (∃ h0 h1 h2 : Word,
      ReadsAs s (BitVec.ofNat 32 (0x1000 + 0x400 * i)) .word h0 ∧
      ReadsAs s (BitVec.ofNat 32 (0x1000 + 0x400 * i + 4)) .word h1 ∧
      ReadsAs s (BitVec.ofNat 32 (0x1000 + 0x400 * i + 8)) .word h2 ∧
      h0.toNat = (match (s.slot i).life with
          | .unused => 0 | .queued => 1 | .sent => 2 | .finished => 3 | .dequeued => 4) +
        2 ^ 8 * (s.slot i).validMask.toNat + 2 ^ 16 * (if (s.slot i).lenKnown then 1 else 0) ∧
      h1.toNat = (s.slot i).txLen + 2 ^ 16 * (s.slot i).txIdx ∧
      h2.toNat = (s.slot i).rxCnt + 2 ^ 16 * (s.slot i).expLen) ∧
    (∀ k, k < (s.slot i).txLen →
      ReadsAs s (BitVec.ofNat 32 (0x1000 + 0x400 * i + 0x100 + k)) .byte (((s.slot i).txByte k).setWidth 32)) ∧
    (∀ k, k < (s.slot i).rxCnt →
      ReadsAs s (BitVec.ofNat 32 (0x1000 + 0x400 * i + 0x200 + k)) .byte (((s.slot i).rxByte k).setWidth 32)) ∧
    (∀ k, k < 256 → (s.slot i).txLen ≤ k → ∃ b : Byte,
      exec (.hrd (BitVec.ofNat 32 (0x1000 + 0x400 * i + 0x100 + k)) .byte) s =
        .next { s with hrdata := some (b.setWidth 32), herr := false, staleReads := s.staleReads + 1 }) ∧
    (∀ k, k < 256 → (s.slot i).rxCnt ≤ k → ∃ b : Byte,
      exec (.hrd (BitVec.ofNat 32 (0x1000 + 0x400 * i + 0x200 + k)) .byte) s =
        .next { s with hrdata := some (b.setWidth 32), herr := false, staleReads := s.staleReads + 1 }) ∧
    (∀ (off : Nat) (z : HSize), 0x00C ≤ off ∧ off < 0x100 ∨ 0x300 ≤ off ∧ off < 0x400 →
      exec (.hrd (BitVec.ofNat 32 (0x1000 + 0x400 * i + off)) z) s =
        .next { s with hrdata := some 0, herr := true }) ∧
    (∀ (off : Nat) (z : HSize) (v : Word), off < 0x400 →
      exec (.hwr (BitVec.ofNat 32 (0x1000 + 0x400 * i + off)) z v) s = .next { s with herr := true })

/-- 20_memory.md R64, R65: which accesses are legal; a refused one changes no state, reads 0 and pulses `HERR`; a legal
one has `HERR` 0, and a read changes nothing. -/
def Obligations.LegalAccess : Prop :=
  ∀ (s : State) (a : Word) (z : HSize),
    (¬ sizedMapped s.n a.toNat z → exec (.hrd a z) s = .next { s with hrdata := some 0, herr := true }) ∧
    (sizedMapped s.n a.toNat z → ∃ t, exec (.hrd a z) s = .next t ∧ t.herr = false ∧
      { t with hrdata := s.hrdata, herr := s.herr, staleReads := s.staleReads } = s) ∧
    (∀ v : Word, ¬ (sizedMapped s.n a.toNat z ∧ writeMapped a.toNat) →
      exec (.hwr a z v) s = .next { s with herr := true }) ∧
    (∀ v : Word, sizedMapped s.n a.toNat z ∧ writeMapped a.toNat →
      ∃ t, exec (.hwr a z v) s = .next t ∧ t.herr = false)

/-- 20_memory.md R63: what a legal write stores, register by register and byte by byte, and that nothing else changes. -/
def Obligations.HostWrites : Prop :=
  ∀ (s : State) (v : Word),
    (∀ k : Fin 5, ∃ t, exec (.hwr (BitVec.ofNat 32 (0x0008 + 4 * k.val)) .word v) s = .next t ∧
      t.arg k = v.extractLsb' 0 16 ∧ (∀ j, j ≠ k → t.arg j = s.arg j) ∧ t.herr = false ∧
      { t with args := s.args, herr := s.herr } = s) ∧
    exec (.hwr 0x0030 .word v) s = .next { s with durResponse := v, herr := false } ∧
    exec (.hwr 0x0034 .word v) s = .next { s with durInterchar := v, herr := false } ∧
    exec (.hwr 0x0038 .word v) s = .next { s with durTurnaround := v, herr := false } ∧
    exec (.hwr 0x003C .word v) s = .next { s with durInterframe := v, herr := false } ∧
    (∀ k, k < 252 → ∃ t, exec (.hwr (BitVec.ofNat 32 (0x0100 + k)) .byte v) s = .next t ∧
      t.wdataByte k = v.extractLsb' 0 8 ∧ (∀ j, j ≠ k → t.wdataByte j = s.wdataByte j) ∧ t.herr = false ∧
      { t with mem := s.mem, herr := s.herr } = s) ∧
    (∀ i, decodeCommand v = .ok i → exec (.hwr 0x0000 .word v) s = exec i s)

/-! ### Port events -/

/-- 43_client_fsm_timer.md R166: `TX_READY` in its three branches; no other operation puts a byte on `tx_data`. -/
def Obligations.TransmitReady : Prop :=
  (∀ (i : Instr) (s t : State), i ≠ .txReady → exec i s = .next t → t.txOut = s.txOut ∨ t.txOut = none) ∧
  ∀ s : State, s.Wf →
    (s.fsm = .emission → s.activeSlot.txIdx < s.activeSlot.txLen →
      ∃ t, exec .txReady s = .next t ∧
        t.txOut = some (s.activeSlot.txByte s.activeSlot.txIdx) ∧
        t.wire = s.wire ++ [s.activeSlot.txByte s.activeSlot.txIdx] ∧
        ActiveBecomes s t { s.activeSlot with txIdx := s.activeSlot.txIdx + 1 } ∧
        CountedOnce s.ctr t.ctr (fun j => j = 1) ∧
        { t with txOut := s.txOut, wire := s.wire, slots := s.slots, ctr := s.ctr } = s) ∧
    (s.fsm = .emission → s.activeSlot.txLen ≤ s.activeSlot.txIdx →
      exec .txReady s = .next { s with txEn := false, tmr := s.activeSlot.waitPurpose, tmrStart := s.time,
                                       fsm := .reception }) ∧
    (s.fsm ≠ .emission → exec .txReady s = .next { s with txEn := false })

/-- 43_client_fsm_timer.md R167, 41_transaction.md R124: `RX_BYTE` outside `reception`, in the middle of a frame, and at
its end. -/
def Obligations.ReceiveByte : Prop :=
  ∀ (s : State) (b : Byte) (e : BitVec 4), s.Wf →
    (s.fsm ≠ .reception → ∃ t, exec (.rxByte b e) s = .next t ∧ CountedOnce s.ctr t.ctr (fun j => j = 0) ∧
      { t with ctr := s.ctr } = s) ∧
    (s.fsm = .reception → ∃ (A : Slot) (c : Vector Word 18) (t : State),
      Received s.activeSlot b e A ∧ receptionCounted s.activeSlot e s.ctr c ∧ exec (.rxByte b e) s = .next t ∧
      t.tmrStart = s.time ∧
      (¬ s.activeSlot.completesNext → ActiveBecomes s t A ∧ t.ctr = c ∧ t.tmr = .interchar ∧
        { t with slots := s.slots, ctr := s.ctr, tmr := s.tmr, tmrStart := s.tmrStart } = s) ∧
      (s.activeSlot.completesNext → Validated { s with ctr := c } A t ∧ t.tmr = .interframe ∧ t.fsm = .idle ∧
        { t with slots := s.slots, ctr := s.ctr, tmr := s.tmr, tmrStart := s.tmrStart, fsm := s.fsm } = s))

/-- 45_frame_parser.md R220 to R223: the steps of validation, all of which always run. -/
def Obligations.ValidationSteps : Prop :=
  ∀ s : State, s.active < s.slots.length →
    Validated s s.activeSlot s.validate ∧ { s.validate with slots := s.slots, ctr := s.ctr } = s

/-- `RUN_IN` with nothing to do: no timer enabled, the enabled one not expired, or the inter-frame delay
(43_client_fsm_timer.md R168, R173). -/
def Obligations.PollWithoutExpiry : Prop :=
  ∀ s : State, s.tmr = .none ∨ s.tmr = .interframe ∨ ¬ s.passed (s.duration s.tmr) → exec .runIn s = .next s

/-- 43_client_fsm_timer.md R169: the response timeout; in a reachable state no byte has arrived. -/
def Obligations.ResponseTimeout : Prop :=
  ∀ s : State, s.Wf → s.tmr = .response → s.passed s.durResponse →
    ∃ t, exec .runIn s = .next t ∧
      ActiveBecomes s t { s.activeSlot with validMask := s.activeSlot.validMask ||| 0x10, life := .finished } ∧
      CountedOnce s.ctr t.ctr (fun j => j = 4) ∧ t.tmr = .interframe ∧ t.tmrStart = s.time ∧ t.fsm = .idle ∧
      { t with slots := s.slots, ctr := s.ctr, tmr := s.tmr, tmrStart := s.tmrStart, fsm := s.fsm } = s ∧
      (s.Inv → (t.slot s.active).rxCnt = 0 ∧ (t.slot s.active).validMask = 0x10)

/-- 43_client_fsm_timer.md R170: the inter-character timeout ends a frame of unknown length, which is validated. -/
def Obligations.SilenceEndsFrame : Prop :=
  ∀ s : State, s.Wf → s.tmr = .interchar → s.passed s.durInterchar → s.activeSlot.lenKnown = false →
    ∃ t, exec .runIn s = .next t ∧ Validated s s.activeSlot t ∧ t.tmr = .interframe ∧ t.tmrStart = s.time ∧
      t.fsm = .idle ∧
      { t with slots := s.slots, ctr := s.ctr, tmr := s.tmr, tmrStart := s.tmrStart, fsm := s.fsm } = s ∧
      (s.Inv → 1 ≤ s.activeSlot.rxCnt)

/-- 43_client_fsm_timer.md R171: the inter-character timeout is an error in a frame of known length. -/
def Obligations.IntercharTimeout : Prop :=
  ∀ s : State, s.Wf → s.tmr = .interchar → s.passed s.durInterchar → s.activeSlot.lenKnown = true →
    ∃ t, exec .runIn s = .next t ∧
      ActiveBecomes s t { s.activeSlot with validMask := s.activeSlot.validMask ||| 0x80, life := .finished } ∧
      CountedOnce s.ctr t.ctr (fun j => j = 5) ∧ t.tmr = .interframe ∧ t.tmrStart = s.time ∧ t.fsm = .ignoring ∧
      { t with slots := s.slots, ctr := s.ctr, tmr := s.tmr, tmrStart := s.tmrStart, fsm := s.fsm } = s

/-- 43_client_fsm_timer.md R172: the turnaround delay ends a broadcast, which is valid and has no response. -/
def Obligations.TurnaroundOver : Prop :=
  ∀ s : State, s.Wf → s.tmr = .turnaround → s.passed s.durTurnaround →
    ∃ t, exec .runIn s = .next t ∧ ActiveBecomes s t { s.activeSlot with life := .finished } ∧
      t.tmr = .interframe ∧ t.tmrStart = s.time ∧ t.fsm = .idle ∧
      { t with slots := s.slots, tmr := s.tmr, tmrStart := s.tmrStart, fsm := s.fsm } = s ∧
      (s.Inv → (t.slot s.active).rxCnt = 0 ∧ (t.slot s.active).validMask = 0)

/-- 43_client_fsm_timer.md R163: a timer of duration d is expired exactly from the d-th `TICK` after it was armed. -/
def Obligations.ExpiryCountsTicks : Prop :=
  (∀ s : State, s.expired = true ↔ s.tmr ≠ .none ∧ (s.duration s.tmr).toNat ≤ (s.time - s.tmrStart).toNat) ∧
  ∀ (s : State) (k : Tmr) (m : Nat), k ≠ .none → m < 2 ^ 32 →
    ∃ t, execAll (List.replicate m .tick) { s with tmr := k, tmrStart := s.time } = .next t ∧
      t.tmr = k ∧ t.tmrStart = s.time ∧ (t.expired = true ↔ (t.duration k).toNat ≤ m)

/-- 43_client_fsm_timer.md R165, with what `available_to_send` comes to in a reachable state (42_message_queue.md
R145): the gate, the claim of the oldest queued transaction, and going idle; and all that R145 says of
`available_to_send` itself. -/
def Obligations.RunOut : Prop :=
  ∀ s : State,
    (¬ s.gateOpen → exec .runOut s = .next s) ∧
    (s.Inv → s.gateOpen →
      (∀ j, s.NextToSend j → ∃ t, exec .runOut s = .next t ∧ t.active = (s.front + j) % s.n ∧
        ActiveBecomes { s with active := (s.front + j) % s.n } t { s.slot ((s.front + j) % s.n) with life := .sent } ∧
        t.tmr = (s.slot ((s.front + j) % s.n)).waitPurpose ∧ t.tmrStart = s.time ∧ t.txEn = true ∧
        t.fsm = .emission ∧
        { t with active := s.active, slots := s.slots, tmr := s.tmr, tmrStart := s.tmrStart, txEn := s.txEn,
                 fsm := s.fsm } = s) ∧
      ((∀ j, j < s.size → s.ringLife j = .finished) →
        exec .runOut s = .next { s with active := s.back, tmr := .none, fsm := .idle }) ∧
      ((∃ j, s.NextToSend j) ∨ ∀ j, j < s.size → s.ringLife j = .finished)) ∧
    (s.Inv → s.AvailableToSend)

/-- What holds of `available_to_send` when nothing is queued (90_conflicts.md C2): it changes no slot and neither
`FRONT` nor `BACK`, and a second call right after it changes nothing at all. -/
def Obligations.AdvanceSettles : Prop :=
  ∀ s : State, s.Inv → s.sendable = false →
    { s.advance with active := s.active } = s ∧ s.advance.sendable = false ∧ s.advance.advance = s.advance

/-- 43_client_fsm_timer.md R178: a transmission starts only by `RUN_OUT`, and after a terminal condition or a
`QUEUE_RESET` only when the inter-frame delay has elapsed. -/
def Obligations.FrameSpacing : Prop :=
  ∀ (i : Instr) (s t : State), i.wf = true → exec i s = .next t → s.fsm ≠ .emission → t.fsm = .emission →
    i = .runOut ∧ (s.tmr = .none ∨ s.tmr = .interframe ∧ s.durInterframe.toNat ≤ (s.time - s.tmrStart).toNat)

/-- The five terminal conditions (43_client_fsm_timer.md R176): a slot becomes finished only as the sent slot under
`ACTIVE`, in one of these ways, and each of them arms the inter-frame delay and leaves emission or reception. -/
def Obligations.TerminalConditions : Prop :=
  ∀ (i : Instr) (s t : State) (k : Nat), s.Inv → i.wf = true → exec i s = .next t →
    (s.slot k).life ≠ .finished → (t.slot k).life = .finished →
    k = s.active ∧ (s.slot k).life = .sent ∧ (s.fsm = .emission ∨ s.fsm = .reception) ∧
    t.tmr = .interframe ∧ t.tmrStart = s.time ∧
    ((∃ b e, i = .rxByte b e ∧ s.fsm = .reception ∧ s.activeSlot.completesNext ∧ t.fsm = .idle) ∨
      i = .runIn ∧ s.passed (s.duration s.tmr) ∧
        (s.tmr = .response ∧ t.fsm = .idle ∨ s.tmr = .turnaround ∧ t.fsm = .idle ∨
          s.tmr = .interchar ∧ s.activeSlot.lenKnown = false ∧ t.fsm = .idle ∨
          s.tmr = .interchar ∧ s.activeSlot.lenKnown = true ∧ t.fsm = .ignoring))

/-- Progress (43_client_fsm_timer.md R177): from every state that meets the invariant with a transaction in flight, a
silent line ends that transaction within one more clock cycle than the running timer's duration counts. The one more
is for a duration of 0 and for a timer whose count is at 2^32 - 1. -/
def Obligations.SilentLineEnds : Prop :=
  ∀ s : State, s.Inv → s.inFlight = true →
    ∃ (m : Nat) (t : State), m ≤ (s.duration s.tmr).toNat + 1 ∧ execAll (silence m) s = .next t ∧
      (t.slot s.active).life = .finished

/-- A frame of `tx_len` bytes takes `tx_len` + 1 `TX_READY` events: the first `tx_len` put exactly the request frame on
the wire, in increasing index, and one more turns the line round (43_client_fsm_timer.md R166, 20_memory.md R75). -/
def Obligations.FrameOnTheWire : Prop :=
  ∀ s : State, s.Wf → s.fsm = .emission → s.activeSlot.txIdx = 0 →
    (∃ t, execAll (List.replicate s.activeSlot.txLen .txReady) s = .next t ∧ t.fsm = .emission ∧
      t.wire = s.wire ++ s.activeSlot.txFrame) ∧
    (∃ t, execAll (List.replicate (s.activeSlot.txLen + 1) .txReady) s = .next t ∧ t.fsm = .reception ∧
      t.txEn = false ∧ t.wire = s.wire ++ s.activeSlot.txFrame ∧ t.tmrStart = s.time ∧
      t.tmr = s.activeSlot.waitPurpose)

/-- A good response is accepted: from the server addressed, of the expected length, with its CRC, no exception, no
error flag. The transaction finishes valid, holding exactly the bytes (41_transaction.md R126, 45_frame_parser.md
R220 to R222, 43_client_fsm_timer.md R167). -/
def Obligations.ResponseAccepted : Prop :=
  ∀ (s : State) (bytes : List Byte), s.Wf → s.fsm = .reception → s.activeSlot.rxCnt = 0 →
    s.activeSlot.validMask = 0 → s.activeSlot.lenKnown = true → s.activeSlot.expLen = bytes.length →
    crcCheck bytes = true → bytes.getD 0 0 = s.activeSlot.txByte 0 → s.activeSlot.txByte 0 ≠ 0 →
    (bytes.getD 1 0).getLsbD 7 = false →
    ∃ t, execAll (bytes.map (fun b => .rxByte b 0)) s = .next t ∧
      (t.slot s.active).life = .finished ∧ (t.slot s.active).validMask = 0 ∧ (t.slot s.active).rxFrame = bytes ∧
      t.fsm = .idle ∧ t.tmr = .interframe ∧ t.tmrStart = s.time ∧ ∀ k : Fin 18, k ≠ 0 → t.ctr[k] = s.ctr[k]

/-- Once the front transaction is ready it stays ready until a `DEQUEUE`, a `QUEUE_RESET` or a reset (20_memory.md
R70 (c), 42_message_queue.md R146, 60_exceptions.md R253). -/
def Obligations.ReadyStaysReady : Prop :=
  ∀ (i : Instr) (s t : State), s.Inv → i.wf = true → exec i s = .next t → i ≠ .dequeue → i ≠ .queueReset → i ≠ .rst →
    s.irqResp = true → t.irqResp = true ∧ t.slot s.front = s.slot s.front
end

