-- ==== Sys2Proof/Laws/State.lean ====
section
/-! SUPPORT. What every named update of the state leaves in each field: one lemma per field per update. -/

namespace Sys2Proof.Machine

variable (s : State)

/-! ### `State.bump` -/

@[simp] theorem State.bump_params (k : Fin 18) : (s.bump k).params = s.params := rfl
@[simp] theorem State.bump_args (k : Fin 18) : (s.bump k).args = s.args := rfl
@[simp] theorem State.bump_result (k : Fin 18) : (s.bump k).result = s.result := rfl
@[simp] theorem State.bump_fsm (k : Fin 18) : (s.bump k).fsm = s.fsm := rfl
@[simp] theorem State.bump_front (k : Fin 18) : (s.bump k).front = s.front := rfl
@[simp] theorem State.bump_back (k : Fin 18) : (s.bump k).back = s.back := rfl
@[simp] theorem State.bump_active (k : Fin 18) : (s.bump k).active = s.active := rfl
@[simp] theorem State.bump_slots (k : Fin 18) : (s.bump k).slots = s.slots := rfl
@[simp] theorem State.bump_tmr (k : Fin 18) : (s.bump k).tmr = s.tmr := rfl
@[simp] theorem State.bump_tmrStart (k : Fin 18) : (s.bump k).tmrStart = s.tmrStart := rfl
@[simp] theorem State.bump_time (k : Fin 18) : (s.bump k).time = s.time := rfl
@[simp] theorem State.bump_durResponse (k : Fin 18) : (s.bump k).durResponse = s.durResponse := rfl
@[simp] theorem State.bump_durInterchar (k : Fin 18) : (s.bump k).durInterchar = s.durInterchar := rfl
@[simp] theorem State.bump_durTurnaround (k : Fin 18) : (s.bump k).durTurnaround = s.durTurnaround := rfl
@[simp] theorem State.bump_durInterframe (k : Fin 18) : (s.bump k).durInterframe = s.durInterframe := rfl
@[simp] theorem State.bump_ctr (k : Fin 18) : (s.bump k).ctr = s.ctr.set k (satInc s.ctr[k]) := rfl
@[simp] theorem State.bump_txEn (k : Fin 18) : (s.bump k).txEn = s.txEn := rfl
@[simp] theorem State.bump_mem (k : Fin 18) : (s.bump k).mem = s.mem := rfl
@[simp] theorem State.bump_txOut (k : Fin 18) : (s.bump k).txOut = s.txOut := rfl
@[simp] theorem State.bump_hrdata (k : Fin 18) : (s.bump k).hrdata = s.hrdata := rfl
@[simp] theorem State.bump_herr (k : Fin 18) : (s.bump k).herr = s.herr := rfl
@[simp] theorem State.bump_wire (k : Fin 18) : (s.bump k).wire = s.wire := rfl
@[simp] theorem State.bump_pins (k : Fin 18) : (s.bump k).pins = s.pins := rfl
@[simp] theorem State.bump_inputs (k : Fin 18) : (s.bump k).inputs = s.inputs := rfl
@[simp] theorem State.bump_resets (k : Fin 18) : (s.bump k).resets = s.resets := rfl
@[simp] theorem State.bump_staleReads (k : Fin 18) : (s.bump k).staleReads = s.staleReads := rfl
@[simp] theorem State.bump_n (k : Fin 18) : (s.bump k).n = s.n := rfl
@[simp] theorem State.bump_slot (k : Fin 18) (j : Nat) : (s.bump k).slot j = s.slot j := rfl
@[simp] theorem State.bump_activeSlot (k : Fin 18) : (s.bump k).activeSlot = s.activeSlot := rfl
@[simp] theorem State.bump_arg (k : Fin 18) (j : Fin 5) : (s.bump k).arg j = s.arg j := rfl
@[simp] theorem State.bump_wdataByte (k : Fin 18) (j : Nat) : (s.bump k).wdataByte j = s.wdataByte j := rfl
@[simp] theorem State.bump_inc (k : Fin 18) (j : Nat) : (s.bump k).inc j = s.inc j := rfl
@[simp] theorem State.bump_size (k : Fin 18) : (s.bump k).size = s.size := rfl
@[simp] theorem State.bump_full (k : Fin 18) : (s.bump k).full = s.full := rfl

/-! ### `State.setArg` -/

@[simp] theorem State.setArg_params (k : Fin 5) (v : Half) : (s.setArg k v).params = s.params := rfl
@[simp] theorem State.setArg_args (k : Fin 5) (v : Half) : (s.setArg k v).args = s.args.set k v := rfl
@[simp] theorem State.setArg_result (k : Fin 5) (v : Half) : (s.setArg k v).result = s.result := rfl
@[simp] theorem State.setArg_fsm (k : Fin 5) (v : Half) : (s.setArg k v).fsm = s.fsm := rfl
@[simp] theorem State.setArg_front (k : Fin 5) (v : Half) : (s.setArg k v).front = s.front := rfl
@[simp] theorem State.setArg_back (k : Fin 5) (v : Half) : (s.setArg k v).back = s.back := rfl
@[simp] theorem State.setArg_active (k : Fin 5) (v : Half) : (s.setArg k v).active = s.active := rfl
@[simp] theorem State.setArg_slots (k : Fin 5) (v : Half) : (s.setArg k v).slots = s.slots := rfl
@[simp] theorem State.setArg_tmr (k : Fin 5) (v : Half) : (s.setArg k v).tmr = s.tmr := rfl
@[simp] theorem State.setArg_tmrStart (k : Fin 5) (v : Half) : (s.setArg k v).tmrStart = s.tmrStart := rfl
@[simp] theorem State.setArg_time (k : Fin 5) (v : Half) : (s.setArg k v).time = s.time := rfl
@[simp] theorem State.setArg_durResponse (k : Fin 5) (v : Half) : (s.setArg k v).durResponse = s.durResponse := rfl
@[simp] theorem State.setArg_durInterchar (k : Fin 5) (v : Half) : (s.setArg k v).durInterchar = s.durInterchar := rfl
@[simp] theorem State.setArg_durTurnaround (k : Fin 5) (v : Half) : (s.setArg k v).durTurnaround = s.durTurnaround := rfl
@[simp] theorem State.setArg_durInterframe (k : Fin 5) (v : Half) : (s.setArg k v).durInterframe = s.durInterframe := rfl
@[simp] theorem State.setArg_ctr (k : Fin 5) (v : Half) : (s.setArg k v).ctr = s.ctr := rfl
@[simp] theorem State.setArg_txEn (k : Fin 5) (v : Half) : (s.setArg k v).txEn = s.txEn := rfl
@[simp] theorem State.setArg_mem (k : Fin 5) (v : Half) : (s.setArg k v).mem = s.mem := rfl
@[simp] theorem State.setArg_txOut (k : Fin 5) (v : Half) : (s.setArg k v).txOut = s.txOut := rfl
@[simp] theorem State.setArg_hrdata (k : Fin 5) (v : Half) : (s.setArg k v).hrdata = s.hrdata := rfl
@[simp] theorem State.setArg_herr (k : Fin 5) (v : Half) : (s.setArg k v).herr = s.herr := rfl
@[simp] theorem State.setArg_wire (k : Fin 5) (v : Half) : (s.setArg k v).wire = s.wire := rfl
@[simp] theorem State.setArg_pins (k : Fin 5) (v : Half) : (s.setArg k v).pins = s.pins := rfl
@[simp] theorem State.setArg_inputs (k : Fin 5) (v : Half) : (s.setArg k v).inputs = s.inputs := rfl
@[simp] theorem State.setArg_resets (k : Fin 5) (v : Half) : (s.setArg k v).resets = s.resets := rfl
@[simp] theorem State.setArg_staleReads (k : Fin 5) (v : Half) : (s.setArg k v).staleReads = s.staleReads := rfl
@[simp] theorem State.setArg_n (k : Fin 5) (v : Half) : (s.setArg k v).n = s.n := rfl
@[simp] theorem State.setArg_slot (k : Fin 5) (v : Half) (j : Nat) : (s.setArg k v).slot j = s.slot j := rfl
@[simp] theorem State.setArg_activeSlot (k : Fin 5) (v : Half) : (s.setArg k v).activeSlot = s.activeSlot := rfl
@[simp] theorem State.setArg_wdataByte (k : Fin 5) (v : Half) (j : Nat) : (s.setArg k v).wdataByte j = s.wdataByte j := rfl
@[simp] theorem State.setArg_inc (k : Fin 5) (v : Half) (j : Nat) : (s.setArg k v).inc j = s.inc j := rfl
@[simp] theorem State.setArg_size (k : Fin 5) (v : Half) : (s.setArg k v).size = s.size := rfl
@[simp] theorem State.setArg_full (k : Fin 5) (v : Half) : (s.setArg k v).full = s.full := rfl

/-! ### `State.setWdata` -/

@[simp] theorem State.setWdata_params (k : Nat) (v : Byte) : (s.setWdata k v).params = s.params := rfl
@[simp] theorem State.setWdata_args (k : Nat) (v : Byte) : (s.setWdata k v).args = s.args := rfl
@[simp] theorem State.setWdata_result (k : Nat) (v : Byte) : (s.setWdata k v).result = s.result := rfl
@[simp] theorem State.setWdata_fsm (k : Nat) (v : Byte) : (s.setWdata k v).fsm = s.fsm := rfl
@[simp] theorem State.setWdata_front (k : Nat) (v : Byte) : (s.setWdata k v).front = s.front := rfl
@[simp] theorem State.setWdata_back (k : Nat) (v : Byte) : (s.setWdata k v).back = s.back := rfl
@[simp] theorem State.setWdata_active (k : Nat) (v : Byte) : (s.setWdata k v).active = s.active := rfl
@[simp] theorem State.setWdata_slots (k : Nat) (v : Byte) : (s.setWdata k v).slots = s.slots := rfl
@[simp] theorem State.setWdata_tmr (k : Nat) (v : Byte) : (s.setWdata k v).tmr = s.tmr := rfl
@[simp] theorem State.setWdata_tmrStart (k : Nat) (v : Byte) : (s.setWdata k v).tmrStart = s.tmrStart := rfl
@[simp] theorem State.setWdata_time (k : Nat) (v : Byte) : (s.setWdata k v).time = s.time := rfl
@[simp] theorem State.setWdata_durResponse (k : Nat) (v : Byte) : (s.setWdata k v).durResponse = s.durResponse := rfl
@[simp] theorem State.setWdata_durInterchar (k : Nat) (v : Byte) : (s.setWdata k v).durInterchar = s.durInterchar := rfl
@[simp] theorem State.setWdata_durTurnaround (k : Nat) (v : Byte) : (s.setWdata k v).durTurnaround = s.durTurnaround := rfl
@[simp] theorem State.setWdata_durInterframe (k : Nat) (v : Byte) : (s.setWdata k v).durInterframe = s.durInterframe := rfl
@[simp] theorem State.setWdata_ctr (k : Nat) (v : Byte) : (s.setWdata k v).ctr = s.ctr := rfl
@[simp] theorem State.setWdata_txEn (k : Nat) (v : Byte) : (s.setWdata k v).txEn = s.txEn := rfl
@[simp] theorem State.setWdata_mem (k : Nat) (v : Byte) : (s.setWdata k v).mem = Memory.set s.mem (wdataBase + k) v := rfl
@[simp] theorem State.setWdata_txOut (k : Nat) (v : Byte) : (s.setWdata k v).txOut = s.txOut := rfl
@[simp] theorem State.setWdata_hrdata (k : Nat) (v : Byte) : (s.setWdata k v).hrdata = s.hrdata := rfl
@[simp] theorem State.setWdata_herr (k : Nat) (v : Byte) : (s.setWdata k v).herr = s.herr := rfl
@[simp] theorem State.setWdata_wire (k : Nat) (v : Byte) : (s.setWdata k v).wire = s.wire := rfl
@[simp] theorem State.setWdata_pins (k : Nat) (v : Byte) : (s.setWdata k v).pins = s.pins := rfl
@[simp] theorem State.setWdata_inputs (k : Nat) (v : Byte) : (s.setWdata k v).inputs = s.inputs := rfl
@[simp] theorem State.setWdata_resets (k : Nat) (v : Byte) : (s.setWdata k v).resets = s.resets := rfl
@[simp] theorem State.setWdata_staleReads (k : Nat) (v : Byte) : (s.setWdata k v).staleReads = s.staleReads := rfl
@[simp] theorem State.setWdata_n (k : Nat) (v : Byte) : (s.setWdata k v).n = s.n := rfl
@[simp] theorem State.setWdata_slot (k : Nat) (v : Byte) (j : Nat) : (s.setWdata k v).slot j = s.slot j := rfl
@[simp] theorem State.setWdata_activeSlot (k : Nat) (v : Byte) : (s.setWdata k v).activeSlot = s.activeSlot := rfl
@[simp] theorem State.setWdata_arg (k : Nat) (v : Byte) (j : Fin 5) : (s.setWdata k v).arg j = s.arg j := rfl
@[simp] theorem State.setWdata_inc (k : Nat) (v : Byte) (j : Nat) : (s.setWdata k v).inc j = s.inc j := rfl
@[simp] theorem State.setWdata_size (k : Nat) (v : Byte) : (s.setWdata k v).size = s.size := rfl
@[simp] theorem State.setWdata_full (k : Nat) (v : Byte) : (s.setWdata k v).full = s.full := rfl

/-! ### `State.setSlot` -/

@[simp] theorem State.setSlot_params (i : Nat) (t : Slot) : (s.setSlot i t).params = s.params := rfl
@[simp] theorem State.setSlot_args (i : Nat) (t : Slot) : (s.setSlot i t).args = s.args := rfl
@[simp] theorem State.setSlot_result (i : Nat) (t : Slot) : (s.setSlot i t).result = s.result := rfl
@[simp] theorem State.setSlot_fsm (i : Nat) (t : Slot) : (s.setSlot i t).fsm = s.fsm := rfl
@[simp] theorem State.setSlot_front (i : Nat) (t : Slot) : (s.setSlot i t).front = s.front := rfl
@[simp] theorem State.setSlot_back (i : Nat) (t : Slot) : (s.setSlot i t).back = s.back := rfl
@[simp] theorem State.setSlot_active (i : Nat) (t : Slot) : (s.setSlot i t).active = s.active := rfl
@[simp] theorem State.setSlot_slots (i : Nat) (t : Slot) : (s.setSlot i t).slots = s.slots.set i t := rfl
@[simp] theorem State.setSlot_tmr (i : Nat) (t : Slot) : (s.setSlot i t).tmr = s.tmr := rfl
@[simp] theorem State.setSlot_tmrStart (i : Nat) (t : Slot) : (s.setSlot i t).tmrStart = s.tmrStart := rfl
@[simp] theorem State.setSlot_time (i : Nat) (t : Slot) : (s.setSlot i t).time = s.time := rfl
@[simp] theorem State.setSlot_durResponse (i : Nat) (t : Slot) : (s.setSlot i t).durResponse = s.durResponse := rfl
@[simp] theorem State.setSlot_durInterchar (i : Nat) (t : Slot) : (s.setSlot i t).durInterchar = s.durInterchar := rfl
@[simp] theorem State.setSlot_durTurnaround (i : Nat) (t : Slot) : (s.setSlot i t).durTurnaround = s.durTurnaround := rfl
@[simp] theorem State.setSlot_durInterframe (i : Nat) (t : Slot) : (s.setSlot i t).durInterframe = s.durInterframe := rfl
@[simp] theorem State.setSlot_ctr (i : Nat) (t : Slot) : (s.setSlot i t).ctr = s.ctr := rfl
@[simp] theorem State.setSlot_txEn (i : Nat) (t : Slot) : (s.setSlot i t).txEn = s.txEn := rfl
@[simp] theorem State.setSlot_mem (i : Nat) (t : Slot) : (s.setSlot i t).mem = s.mem := rfl
@[simp] theorem State.setSlot_txOut (i : Nat) (t : Slot) : (s.setSlot i t).txOut = s.txOut := rfl
@[simp] theorem State.setSlot_hrdata (i : Nat) (t : Slot) : (s.setSlot i t).hrdata = s.hrdata := rfl
@[simp] theorem State.setSlot_herr (i : Nat) (t : Slot) : (s.setSlot i t).herr = s.herr := rfl
@[simp] theorem State.setSlot_wire (i : Nat) (t : Slot) : (s.setSlot i t).wire = s.wire := rfl
@[simp] theorem State.setSlot_pins (i : Nat) (t : Slot) : (s.setSlot i t).pins = s.pins := rfl
@[simp] theorem State.setSlot_inputs (i : Nat) (t : Slot) : (s.setSlot i t).inputs = s.inputs := rfl
@[simp] theorem State.setSlot_resets (i : Nat) (t : Slot) : (s.setSlot i t).resets = s.resets := rfl
@[simp] theorem State.setSlot_staleReads (i : Nat) (t : Slot) : (s.setSlot i t).staleReads = s.staleReads := rfl
@[simp] theorem State.setSlot_n (i : Nat) (t : Slot) : (s.setSlot i t).n = s.n := rfl
@[simp] theorem State.setSlot_arg (i : Nat) (t : Slot) (j : Fin 5) : (s.setSlot i t).arg j = s.arg j := rfl
@[simp] theorem State.setSlot_wdataByte (i : Nat) (t : Slot) (j : Nat) : (s.setSlot i t).wdataByte j = s.wdataByte j := rfl
@[simp] theorem State.setSlot_inc (i : Nat) (t : Slot) (j : Nat) : (s.setSlot i t).inc j = s.inc j := rfl
@[simp] theorem State.setSlot_size (i : Nat) (t : Slot) : (s.setSlot i t).size = s.size := rfl
@[simp] theorem State.setSlot_full (i : Nat) (t : Slot) : (s.setSlot i t).full = s.full := rfl

/-! ### `State.setActive` -/

@[simp] theorem State.setActive_params (t : Slot) : (s.setActive t).params = s.params := rfl
@[simp] theorem State.setActive_args (t : Slot) : (s.setActive t).args = s.args := rfl
@[simp] theorem State.setActive_result (t : Slot) : (s.setActive t).result = s.result := rfl
@[simp] theorem State.setActive_fsm (t : Slot) : (s.setActive t).fsm = s.fsm := rfl
@[simp] theorem State.setActive_front (t : Slot) : (s.setActive t).front = s.front := rfl
@[simp] theorem State.setActive_back (t : Slot) : (s.setActive t).back = s.back := rfl
@[simp] theorem State.setActive_active (t : Slot) : (s.setActive t).active = s.active := rfl
@[simp] theorem State.setActive_slots (t : Slot) : (s.setActive t).slots = s.slots.set s.active t := rfl
@[simp] theorem State.setActive_tmr (t : Slot) : (s.setActive t).tmr = s.tmr := rfl
@[simp] theorem State.setActive_tmrStart (t : Slot) : (s.setActive t).tmrStart = s.tmrStart := rfl
@[simp] theorem State.setActive_time (t : Slot) : (s.setActive t).time = s.time := rfl
@[simp] theorem State.setActive_durResponse (t : Slot) : (s.setActive t).durResponse = s.durResponse := rfl
@[simp] theorem State.setActive_durInterchar (t : Slot) : (s.setActive t).durInterchar = s.durInterchar := rfl
@[simp] theorem State.setActive_durTurnaround (t : Slot) : (s.setActive t).durTurnaround = s.durTurnaround := rfl
@[simp] theorem State.setActive_durInterframe (t : Slot) : (s.setActive t).durInterframe = s.durInterframe := rfl
@[simp] theorem State.setActive_ctr (t : Slot) : (s.setActive t).ctr = s.ctr := rfl
@[simp] theorem State.setActive_txEn (t : Slot) : (s.setActive t).txEn = s.txEn := rfl
@[simp] theorem State.setActive_mem (t : Slot) : (s.setActive t).mem = s.mem := rfl
@[simp] theorem State.setActive_txOut (t : Slot) : (s.setActive t).txOut = s.txOut := rfl
@[simp] theorem State.setActive_hrdata (t : Slot) : (s.setActive t).hrdata = s.hrdata := rfl
@[simp] theorem State.setActive_herr (t : Slot) : (s.setActive t).herr = s.herr := rfl
@[simp] theorem State.setActive_wire (t : Slot) : (s.setActive t).wire = s.wire := rfl
@[simp] theorem State.setActive_pins (t : Slot) : (s.setActive t).pins = s.pins := rfl
@[simp] theorem State.setActive_inputs (t : Slot) : (s.setActive t).inputs = s.inputs := rfl
@[simp] theorem State.setActive_resets (t : Slot) : (s.setActive t).resets = s.resets := rfl
@[simp] theorem State.setActive_staleReads (t : Slot) : (s.setActive t).staleReads = s.staleReads := rfl
@[simp] theorem State.setActive_n (t : Slot) : (s.setActive t).n = s.n := rfl
@[simp] theorem State.setActive_arg (t : Slot) (j : Fin 5) : (s.setActive t).arg j = s.arg j := rfl
@[simp] theorem State.setActive_wdataByte (t : Slot) (j : Nat) : (s.setActive t).wdataByte j = s.wdataByte j := rfl
@[simp] theorem State.setActive_inc (t : Slot) (j : Nat) : (s.setActive t).inc j = s.inc j := rfl
@[simp] theorem State.setActive_size (t : Slot) : (s.setActive t).size = s.size := rfl
@[simp] theorem State.setActive_full (t : Slot) : (s.setActive t).full = s.full := rfl

/-! ### `State.commandDone` -/

@[simp] theorem State.commandDone_params (r : Word) : (s.commandDone r).params = s.params := rfl
@[simp] theorem State.commandDone_args (r : Word) : (s.commandDone r).args = s.args := rfl
@[simp] theorem State.commandDone_result (r : Word) : (s.commandDone r).result = r := rfl
@[simp] theorem State.commandDone_fsm (r : Word) : (s.commandDone r).fsm = s.fsm := rfl
@[simp] theorem State.commandDone_front (r : Word) : (s.commandDone r).front = s.front := rfl
@[simp] theorem State.commandDone_back (r : Word) : (s.commandDone r).back = s.back := rfl
@[simp] theorem State.commandDone_active (r : Word) : (s.commandDone r).active = s.active := rfl
@[simp] theorem State.commandDone_slots (r : Word) : (s.commandDone r).slots = s.slots := rfl
@[simp] theorem State.commandDone_tmr (r : Word) : (s.commandDone r).tmr = s.tmr := rfl
@[simp] theorem State.commandDone_tmrStart (r : Word) : (s.commandDone r).tmrStart = s.tmrStart := rfl
@[simp] theorem State.commandDone_time (r : Word) : (s.commandDone r).time = s.time := rfl
@[simp] theorem State.commandDone_durResponse (r : Word) : (s.commandDone r).durResponse = s.durResponse := rfl
@[simp] theorem State.commandDone_durInterchar (r : Word) : (s.commandDone r).durInterchar = s.durInterchar := rfl
@[simp] theorem State.commandDone_durTurnaround (r : Word) : (s.commandDone r).durTurnaround = s.durTurnaround := rfl
@[simp] theorem State.commandDone_durInterframe (r : Word) : (s.commandDone r).durInterframe = s.durInterframe := rfl
@[simp] theorem State.commandDone_ctr (r : Word) : (s.commandDone r).ctr = s.ctr := rfl
@[simp] theorem State.commandDone_txEn (r : Word) : (s.commandDone r).txEn = s.txEn := rfl
@[simp] theorem State.commandDone_mem (r : Word) : (s.commandDone r).mem = s.mem := rfl
@[simp] theorem State.commandDone_txOut (r : Word) : (s.commandDone r).txOut = s.txOut := rfl
@[simp] theorem State.commandDone_hrdata (r : Word) : (s.commandDone r).hrdata = s.hrdata := rfl
@[simp] theorem State.commandDone_herr (r : Word) : (s.commandDone r).herr = false := rfl
@[simp] theorem State.commandDone_wire (r : Word) : (s.commandDone r).wire = s.wire := rfl
@[simp] theorem State.commandDone_pins (r : Word) : (s.commandDone r).pins = s.pins := rfl
@[simp] theorem State.commandDone_inputs (r : Word) : (s.commandDone r).inputs = s.inputs := rfl
@[simp] theorem State.commandDone_resets (r : Word) : (s.commandDone r).resets = s.resets := rfl
@[simp] theorem State.commandDone_staleReads (r : Word) : (s.commandDone r).staleReads = s.staleReads := rfl
@[simp] theorem State.commandDone_n (r : Word) : (s.commandDone r).n = s.n := rfl
@[simp] theorem State.commandDone_slot (r : Word) (j : Nat) : (s.commandDone r).slot j = s.slot j := rfl
@[simp] theorem State.commandDone_activeSlot (r : Word) : (s.commandDone r).activeSlot = s.activeSlot := rfl
@[simp] theorem State.commandDone_arg (r : Word) (j : Fin 5) : (s.commandDone r).arg j = s.arg j := rfl
@[simp] theorem State.commandDone_wdataByte (r : Word) (j : Nat) : (s.commandDone r).wdataByte j = s.wdataByte j := rfl
@[simp] theorem State.commandDone_inc (r : Word) (j : Nat) : (s.commandDone r).inc j = s.inc j := rfl
@[simp] theorem State.commandDone_size (r : Word) : (s.commandDone r).size = s.size := rfl
@[simp] theorem State.commandDone_full (r : Word) : (s.commandDone r).full = s.full := rfl

/-! ### `State.rejectCommand` -/

@[simp] theorem State.rejectCommand_params (r : Reject) : (s.rejectCommand r).params = s.params := rfl
@[simp] theorem State.rejectCommand_args (r : Reject) : (s.rejectCommand r).args = s.args := rfl
@[simp] theorem State.rejectCommand_result (r : Reject) : (s.rejectCommand r).result = resultReject r := rfl
@[simp] theorem State.rejectCommand_fsm (r : Reject) : (s.rejectCommand r).fsm = s.fsm := rfl
@[simp] theorem State.rejectCommand_front (r : Reject) : (s.rejectCommand r).front = s.front := rfl
@[simp] theorem State.rejectCommand_back (r : Reject) : (s.rejectCommand r).back = s.back := rfl
@[simp] theorem State.rejectCommand_active (r : Reject) : (s.rejectCommand r).active = s.active := rfl
@[simp] theorem State.rejectCommand_slots (r : Reject) : (s.rejectCommand r).slots = s.slots := rfl
@[simp] theorem State.rejectCommand_tmr (r : Reject) : (s.rejectCommand r).tmr = s.tmr := rfl
@[simp] theorem State.rejectCommand_tmrStart (r : Reject) : (s.rejectCommand r).tmrStart = s.tmrStart := rfl
@[simp] theorem State.rejectCommand_time (r : Reject) : (s.rejectCommand r).time = s.time := rfl
@[simp] theorem State.rejectCommand_durResponse (r : Reject) : (s.rejectCommand r).durResponse = s.durResponse := rfl
@[simp] theorem State.rejectCommand_durInterchar (r : Reject) : (s.rejectCommand r).durInterchar = s.durInterchar := rfl
@[simp] theorem State.rejectCommand_durTurnaround (r : Reject) : (s.rejectCommand r).durTurnaround = s.durTurnaround := rfl
@[simp] theorem State.rejectCommand_durInterframe (r : Reject) : (s.rejectCommand r).durInterframe = s.durInterframe := rfl
@[simp] theorem State.rejectCommand_ctr (r : Reject) : (s.rejectCommand r).ctr = s.ctr := rfl
@[simp] theorem State.rejectCommand_txEn (r : Reject) : (s.rejectCommand r).txEn = s.txEn := rfl
@[simp] theorem State.rejectCommand_mem (r : Reject) : (s.rejectCommand r).mem = s.mem := rfl
@[simp] theorem State.rejectCommand_txOut (r : Reject) : (s.rejectCommand r).txOut = s.txOut := rfl
@[simp] theorem State.rejectCommand_hrdata (r : Reject) : (s.rejectCommand r).hrdata = s.hrdata := rfl
@[simp] theorem State.rejectCommand_herr (r : Reject) : (s.rejectCommand r).herr = false := rfl
@[simp] theorem State.rejectCommand_wire (r : Reject) : (s.rejectCommand r).wire = s.wire := rfl
@[simp] theorem State.rejectCommand_pins (r : Reject) : (s.rejectCommand r).pins = s.pins := rfl
@[simp] theorem State.rejectCommand_inputs (r : Reject) : (s.rejectCommand r).inputs = s.inputs := rfl
@[simp] theorem State.rejectCommand_resets (r : Reject) : (s.rejectCommand r).resets = s.resets := rfl
@[simp] theorem State.rejectCommand_staleReads (r : Reject) : (s.rejectCommand r).staleReads = s.staleReads := rfl
@[simp] theorem State.rejectCommand_n (r : Reject) : (s.rejectCommand r).n = s.n := rfl
@[simp] theorem State.rejectCommand_slot (r : Reject) (j : Nat) : (s.rejectCommand r).slot j = s.slot j := rfl
@[simp] theorem State.rejectCommand_activeSlot (r : Reject) : (s.rejectCommand r).activeSlot = s.activeSlot := rfl
@[simp] theorem State.rejectCommand_arg (r : Reject) (j : Fin 5) : (s.rejectCommand r).arg j = s.arg j := rfl
@[simp] theorem State.rejectCommand_wdataByte (r : Reject) (j : Nat) : (s.rejectCommand r).wdataByte j = s.wdataByte j := rfl
@[simp] theorem State.rejectCommand_inc (r : Reject) (j : Nat) : (s.rejectCommand r).inc j = s.inc j := rfl
@[simp] theorem State.rejectCommand_size (r : Reject) : (s.rejectCommand r).size = s.size := rfl
@[simp] theorem State.rejectCommand_full (r : Reject) : (s.rejectCommand r).full = s.full := rfl

/-! ### `State.arm` -/

@[simp] theorem State.arm_params (k : Tmr) : (s.arm k).params = s.params := rfl
@[simp] theorem State.arm_args (k : Tmr) : (s.arm k).args = s.args := rfl
@[simp] theorem State.arm_result (k : Tmr) : (s.arm k).result = s.result := rfl
@[simp] theorem State.arm_fsm (k : Tmr) : (s.arm k).fsm = s.fsm := rfl
@[simp] theorem State.arm_front (k : Tmr) : (s.arm k).front = s.front := rfl
@[simp] theorem State.arm_back (k : Tmr) : (s.arm k).back = s.back := rfl
@[simp] theorem State.arm_active (k : Tmr) : (s.arm k).active = s.active := rfl
@[simp] theorem State.arm_slots (k : Tmr) : (s.arm k).slots = s.slots := rfl
@[simp] theorem State.arm_tmr (k : Tmr) : (s.arm k).tmr = k := rfl
@[simp] theorem State.arm_tmrStart (k : Tmr) : (s.arm k).tmrStart = s.time := rfl
@[simp] theorem State.arm_time (k : Tmr) : (s.arm k).time = s.time := rfl
@[simp] theorem State.arm_durResponse (k : Tmr) : (s.arm k).durResponse = s.durResponse := rfl
@[simp] theorem State.arm_durInterchar (k : Tmr) : (s.arm k).durInterchar = s.durInterchar := rfl
@[simp] theorem State.arm_durTurnaround (k : Tmr) : (s.arm k).durTurnaround = s.durTurnaround := rfl
@[simp] theorem State.arm_durInterframe (k : Tmr) : (s.arm k).durInterframe = s.durInterframe := rfl
@[simp] theorem State.arm_ctr (k : Tmr) : (s.arm k).ctr = s.ctr := rfl
@[simp] theorem State.arm_txEn (k : Tmr) : (s.arm k).txEn = s.txEn := rfl
@[simp] theorem State.arm_mem (k : Tmr) : (s.arm k).mem = s.mem := rfl
@[simp] theorem State.arm_txOut (k : Tmr) : (s.arm k).txOut = s.txOut := rfl
@[simp] theorem State.arm_hrdata (k : Tmr) : (s.arm k).hrdata = s.hrdata := rfl
@[simp] theorem State.arm_herr (k : Tmr) : (s.arm k).herr = s.herr := rfl
@[simp] theorem State.arm_wire (k : Tmr) : (s.arm k).wire = s.wire := rfl
@[simp] theorem State.arm_pins (k : Tmr) : (s.arm k).pins = s.pins := rfl
@[simp] theorem State.arm_inputs (k : Tmr) : (s.arm k).inputs = s.inputs := rfl
@[simp] theorem State.arm_resets (k : Tmr) : (s.arm k).resets = s.resets := rfl
@[simp] theorem State.arm_staleReads (k : Tmr) : (s.arm k).staleReads = s.staleReads := rfl
@[simp] theorem State.arm_n (k : Tmr) : (s.arm k).n = s.n := rfl
@[simp] theorem State.arm_slot (k : Tmr) (j : Nat) : (s.arm k).slot j = s.slot j := rfl
@[simp] theorem State.arm_activeSlot (k : Tmr) : (s.arm k).activeSlot = s.activeSlot := rfl
@[simp] theorem State.arm_arg (k : Tmr) (j : Fin 5) : (s.arm k).arg j = s.arg j := rfl
@[simp] theorem State.arm_wdataByte (k : Tmr) (j : Nat) : (s.arm k).wdataByte j = s.wdataByte j := rfl
@[simp] theorem State.arm_inc (k : Tmr) (j : Nat) : (s.arm k).inc j = s.inc j := rfl
@[simp] theorem State.arm_size (k : Tmr) : (s.arm k).size = s.size := rfl
@[simp] theorem State.arm_full (k : Tmr) : (s.arm k).full = s.full := rfl

/-! ### `State.invalidate` -/

@[simp] theorem State.invalidate_params (a : Anomaly) : (s.invalidate a).params = s.params := rfl
@[simp] theorem State.invalidate_args (a : Anomaly) : (s.invalidate a).args = s.args := rfl
@[simp] theorem State.invalidate_result (a : Anomaly) : (s.invalidate a).result = s.result := rfl
@[simp] theorem State.invalidate_fsm (a : Anomaly) : (s.invalidate a).fsm = s.fsm := rfl
@[simp] theorem State.invalidate_front (a : Anomaly) : (s.invalidate a).front = s.front := rfl
@[simp] theorem State.invalidate_back (a : Anomaly) : (s.invalidate a).back = s.back := rfl
@[simp] theorem State.invalidate_active (a : Anomaly) : (s.invalidate a).active = s.active := rfl
@[simp] theorem State.invalidate_slots (a : Anomaly) : (s.invalidate a).slots = s.slots.set s.active (s.activeSlot.flag a) := rfl
@[simp] theorem State.invalidate_tmr (a : Anomaly) : (s.invalidate a).tmr = s.tmr := rfl
@[simp] theorem State.invalidate_tmrStart (a : Anomaly) : (s.invalidate a).tmrStart = s.tmrStart := rfl
@[simp] theorem State.invalidate_time (a : Anomaly) : (s.invalidate a).time = s.time := rfl
@[simp] theorem State.invalidate_durResponse (a : Anomaly) : (s.invalidate a).durResponse = s.durResponse := rfl
@[simp] theorem State.invalidate_durInterchar (a : Anomaly) : (s.invalidate a).durInterchar = s.durInterchar := rfl
@[simp] theorem State.invalidate_durTurnaround (a : Anomaly) : (s.invalidate a).durTurnaround = s.durTurnaround := rfl
@[simp] theorem State.invalidate_durInterframe (a : Anomaly) : (s.invalidate a).durInterframe = s.durInterframe := rfl
@[simp] theorem State.invalidate_ctr (a : Anomaly) : (s.invalidate a).ctr = s.ctr.set a.counter (satInc s.ctr[a.counter]) := rfl
@[simp] theorem State.invalidate_txEn (a : Anomaly) : (s.invalidate a).txEn = s.txEn := rfl
@[simp] theorem State.invalidate_mem (a : Anomaly) : (s.invalidate a).mem = s.mem := rfl
@[simp] theorem State.invalidate_txOut (a : Anomaly) : (s.invalidate a).txOut = s.txOut := rfl
@[simp] theorem State.invalidate_hrdata (a : Anomaly) : (s.invalidate a).hrdata = s.hrdata := rfl
@[simp] theorem State.invalidate_herr (a : Anomaly) : (s.invalidate a).herr = s.herr := rfl
@[simp] theorem State.invalidate_wire (a : Anomaly) : (s.invalidate a).wire = s.wire := rfl
@[simp] theorem State.invalidate_pins (a : Anomaly) : (s.invalidate a).pins = s.pins := rfl
@[simp] theorem State.invalidate_inputs (a : Anomaly) : (s.invalidate a).inputs = s.inputs := rfl
@[simp] theorem State.invalidate_resets (a : Anomaly) : (s.invalidate a).resets = s.resets := rfl
@[simp] theorem State.invalidate_staleReads (a : Anomaly) : (s.invalidate a).staleReads = s.staleReads := rfl
@[simp] theorem State.invalidate_n (a : Anomaly) : (s.invalidate a).n = s.n := rfl
@[simp] theorem State.invalidate_arg (a : Anomaly) (j : Fin 5) : (s.invalidate a).arg j = s.arg j := rfl
@[simp] theorem State.invalidate_wdataByte (a : Anomaly) (j : Nat) : (s.invalidate a).wdataByte j = s.wdataByte j := rfl
@[simp] theorem State.invalidate_inc (a : Anomaly) (j : Nat) : (s.invalidate a).inc j = s.inc j := rfl
@[simp] theorem State.invalidate_size (a : Anomaly) : (s.invalidate a).size = s.size := rfl
@[simp] theorem State.invalidate_full (a : Anomaly) : (s.invalidate a).full = s.full := rfl

/-! ### `State.markFinished` -/

@[simp] theorem State.markFinished_params : (s.markFinished).params = s.params := rfl
@[simp] theorem State.markFinished_args : (s.markFinished).args = s.args := rfl
@[simp] theorem State.markFinished_result : (s.markFinished).result = s.result := rfl
@[simp] theorem State.markFinished_fsm : (s.markFinished).fsm = s.fsm := rfl
@[simp] theorem State.markFinished_front : (s.markFinished).front = s.front := rfl
@[simp] theorem State.markFinished_back : (s.markFinished).back = s.back := rfl
@[simp] theorem State.markFinished_active : (s.markFinished).active = s.active := rfl
@[simp] theorem State.markFinished_slots : (s.markFinished).slots = s.slots.set s.active (s.activeSlot.mark .finished) := rfl
@[simp] theorem State.markFinished_tmr : (s.markFinished).tmr = s.tmr := rfl
@[simp] theorem State.markFinished_tmrStart : (s.markFinished).tmrStart = s.tmrStart := rfl
@[simp] theorem State.markFinished_time : (s.markFinished).time = s.time := rfl
@[simp] theorem State.markFinished_durResponse : (s.markFinished).durResponse = s.durResponse := rfl
@[simp] theorem State.markFinished_durInterchar : (s.markFinished).durInterchar = s.durInterchar := rfl
@[simp] theorem State.markFinished_durTurnaround : (s.markFinished).durTurnaround = s.durTurnaround := rfl
@[simp] theorem State.markFinished_durInterframe : (s.markFinished).durInterframe = s.durInterframe := rfl
@[simp] theorem State.markFinished_ctr : (s.markFinished).ctr = s.ctr := rfl
@[simp] theorem State.markFinished_txEn : (s.markFinished).txEn = s.txEn := rfl
@[simp] theorem State.markFinished_mem : (s.markFinished).mem = s.mem := rfl
@[simp] theorem State.markFinished_txOut : (s.markFinished).txOut = s.txOut := rfl
@[simp] theorem State.markFinished_hrdata : (s.markFinished).hrdata = s.hrdata := rfl
@[simp] theorem State.markFinished_herr : (s.markFinished).herr = s.herr := rfl
@[simp] theorem State.markFinished_wire : (s.markFinished).wire = s.wire := rfl
@[simp] theorem State.markFinished_pins : (s.markFinished).pins = s.pins := rfl
@[simp] theorem State.markFinished_inputs : (s.markFinished).inputs = s.inputs := rfl
@[simp] theorem State.markFinished_resets : (s.markFinished).resets = s.resets := rfl
@[simp] theorem State.markFinished_staleReads : (s.markFinished).staleReads = s.staleReads := rfl
@[simp] theorem State.markFinished_n : (s.markFinished).n = s.n := rfl
@[simp] theorem State.markFinished_arg (j : Fin 5) : (s.markFinished).arg j = s.arg j := rfl
@[simp] theorem State.markFinished_wdataByte (j : Nat) : (s.markFinished).wdataByte j = s.wdataByte j := rfl
@[simp] theorem State.markFinished_inc (j : Nat) : (s.markFinished).inc j = s.inc j := rfl
@[simp] theorem State.markFinished_size : (s.markFinished).size = s.size := rfl
@[simp] theorem State.markFinished_full : (s.markFinished).full = s.full := rfl

/-! ### `State.leave` -/

@[simp] theorem State.leave_params (f : Fsm) : (s.leave f).params = s.params := rfl
@[simp] theorem State.leave_args (f : Fsm) : (s.leave f).args = s.args := rfl
@[simp] theorem State.leave_result (f : Fsm) : (s.leave f).result = s.result := rfl
@[simp] theorem State.leave_fsm (f : Fsm) : (s.leave f).fsm = f := rfl
@[simp] theorem State.leave_front (f : Fsm) : (s.leave f).front = s.front := rfl
@[simp] theorem State.leave_back (f : Fsm) : (s.leave f).back = s.back := rfl
@[simp] theorem State.leave_active (f : Fsm) : (s.leave f).active = s.active := rfl
@[simp] theorem State.leave_slots (f : Fsm) : (s.leave f).slots = s.slots := rfl
@[simp] theorem State.leave_tmr (f : Fsm) : (s.leave f).tmr = .interframe := rfl
@[simp] theorem State.leave_tmrStart (f : Fsm) : (s.leave f).tmrStart = s.time := rfl
@[simp] theorem State.leave_time (f : Fsm) : (s.leave f).time = s.time := rfl
@[simp] theorem State.leave_durResponse (f : Fsm) : (s.leave f).durResponse = s.durResponse := rfl
@[simp] theorem State.leave_durInterchar (f : Fsm) : (s.leave f).durInterchar = s.durInterchar := rfl
@[simp] theorem State.leave_durTurnaround (f : Fsm) : (s.leave f).durTurnaround = s.durTurnaround := rfl
@[simp] theorem State.leave_durInterframe (f : Fsm) : (s.leave f).durInterframe = s.durInterframe := rfl
@[simp] theorem State.leave_ctr (f : Fsm) : (s.leave f).ctr = s.ctr := rfl
@[simp] theorem State.leave_txEn (f : Fsm) : (s.leave f).txEn = s.txEn := rfl
@[simp] theorem State.leave_mem (f : Fsm) : (s.leave f).mem = s.mem := rfl
@[simp] theorem State.leave_txOut (f : Fsm) : (s.leave f).txOut = s.txOut := rfl
@[simp] theorem State.leave_hrdata (f : Fsm) : (s.leave f).hrdata = s.hrdata := rfl
@[simp] theorem State.leave_herr (f : Fsm) : (s.leave f).herr = s.herr := rfl
@[simp] theorem State.leave_wire (f : Fsm) : (s.leave f).wire = s.wire := rfl
@[simp] theorem State.leave_pins (f : Fsm) : (s.leave f).pins = s.pins := rfl
@[simp] theorem State.leave_inputs (f : Fsm) : (s.leave f).inputs = s.inputs := rfl
@[simp] theorem State.leave_resets (f : Fsm) : (s.leave f).resets = s.resets := rfl
@[simp] theorem State.leave_staleReads (f : Fsm) : (s.leave f).staleReads = s.staleReads := rfl
@[simp] theorem State.leave_n (f : Fsm) : (s.leave f).n = s.n := rfl
@[simp] theorem State.leave_slot (f : Fsm) (j : Nat) : (s.leave f).slot j = s.slot j := rfl
@[simp] theorem State.leave_activeSlot (f : Fsm) : (s.leave f).activeSlot = s.activeSlot := rfl
@[simp] theorem State.leave_arg (f : Fsm) (j : Fin 5) : (s.leave f).arg j = s.arg j := rfl
@[simp] theorem State.leave_wdataByte (f : Fsm) (j : Nat) : (s.leave f).wdataByte j = s.wdataByte j := rfl
@[simp] theorem State.leave_inc (f : Fsm) (j : Nat) : (s.leave f).inc j = s.inc j := rfl
@[simp] theorem State.leave_size (f : Fsm) : (s.leave f).size = s.size := rfl
@[simp] theorem State.leave_full (f : Fsm) : (s.leave f).full = s.full := rfl

/-! ### `State.wireTx` -/

@[simp] theorem State.wireTx_params (b : Byte) : (s.wireTx b).params = s.params := rfl
@[simp] theorem State.wireTx_args (b : Byte) : (s.wireTx b).args = s.args := rfl
@[simp] theorem State.wireTx_result (b : Byte) : (s.wireTx b).result = s.result := rfl
@[simp] theorem State.wireTx_fsm (b : Byte) : (s.wireTx b).fsm = s.fsm := rfl
@[simp] theorem State.wireTx_front (b : Byte) : (s.wireTx b).front = s.front := rfl
@[simp] theorem State.wireTx_back (b : Byte) : (s.wireTx b).back = s.back := rfl
@[simp] theorem State.wireTx_active (b : Byte) : (s.wireTx b).active = s.active := rfl
@[simp] theorem State.wireTx_slots (b : Byte) : (s.wireTx b).slots = s.slots := rfl
@[simp] theorem State.wireTx_tmr (b : Byte) : (s.wireTx b).tmr = s.tmr := rfl
@[simp] theorem State.wireTx_tmrStart (b : Byte) : (s.wireTx b).tmrStart = s.tmrStart := rfl
@[simp] theorem State.wireTx_time (b : Byte) : (s.wireTx b).time = s.time := rfl
@[simp] theorem State.wireTx_durResponse (b : Byte) : (s.wireTx b).durResponse = s.durResponse := rfl
@[simp] theorem State.wireTx_durInterchar (b : Byte) : (s.wireTx b).durInterchar = s.durInterchar := rfl
@[simp] theorem State.wireTx_durTurnaround (b : Byte) : (s.wireTx b).durTurnaround = s.durTurnaround := rfl
@[simp] theorem State.wireTx_durInterframe (b : Byte) : (s.wireTx b).durInterframe = s.durInterframe := rfl
@[simp] theorem State.wireTx_ctr (b : Byte) : (s.wireTx b).ctr = s.ctr := rfl
@[simp] theorem State.wireTx_txEn (b : Byte) : (s.wireTx b).txEn = s.txEn := rfl
@[simp] theorem State.wireTx_mem (b : Byte) : (s.wireTx b).mem = s.mem := rfl
@[simp] theorem State.wireTx_txOut (b : Byte) : (s.wireTx b).txOut = some b := rfl
@[simp] theorem State.wireTx_hrdata (b : Byte) : (s.wireTx b).hrdata = s.hrdata := rfl
@[simp] theorem State.wireTx_herr (b : Byte) : (s.wireTx b).herr = s.herr := rfl
@[simp] theorem State.wireTx_wire (b : Byte) : (s.wireTx b).wire = s.wire ++ [b] := rfl
@[simp] theorem State.wireTx_pins (b : Byte) : (s.wireTx b).pins = s.pins := rfl
@[simp] theorem State.wireTx_inputs (b : Byte) : (s.wireTx b).inputs = s.inputs := rfl
@[simp] theorem State.wireTx_resets (b : Byte) : (s.wireTx b).resets = s.resets := rfl
@[simp] theorem State.wireTx_staleReads (b : Byte) : (s.wireTx b).staleReads = s.staleReads := rfl
@[simp] theorem State.wireTx_n (b : Byte) : (s.wireTx b).n = s.n := rfl
@[simp] theorem State.wireTx_slot (b : Byte) (j : Nat) : (s.wireTx b).slot j = s.slot j := rfl
@[simp] theorem State.wireTx_activeSlot (b : Byte) : (s.wireTx b).activeSlot = s.activeSlot := rfl
@[simp] theorem State.wireTx_arg (b : Byte) (j : Fin 5) : (s.wireTx b).arg j = s.arg j := rfl
@[simp] theorem State.wireTx_wdataByte (b : Byte) (j : Nat) : (s.wireTx b).wdataByte j = s.wdataByte j := rfl
@[simp] theorem State.wireTx_inc (b : Byte) (j : Nat) : (s.wireTx b).inc j = s.inc j := rfl
@[simp] theorem State.wireTx_size (b : Byte) : (s.wireTx b).size = s.size := rfl
@[simp] theorem State.wireTx_full (b : Byte) : (s.wireTx b).full = s.full := rfl

/-! ### `State.advance` -/

@[simp] theorem State.advance_params : (s.advance).params = s.params := rfl
@[simp] theorem State.advance_args : (s.advance).args = s.args := rfl
@[simp] theorem State.advance_result : (s.advance).result = s.result := rfl
@[simp] theorem State.advance_fsm : (s.advance).fsm = s.fsm := rfl
@[simp] theorem State.advance_front : (s.advance).front = s.front := rfl
@[simp] theorem State.advance_back : (s.advance).back = s.back := rfl
@[simp] theorem State.advance_active : (s.advance).active = s.advanceFrom s.n true s.active := rfl
@[simp] theorem State.advance_slots : (s.advance).slots = s.slots := rfl
@[simp] theorem State.advance_tmr : (s.advance).tmr = s.tmr := rfl
@[simp] theorem State.advance_tmrStart : (s.advance).tmrStart = s.tmrStart := rfl
@[simp] theorem State.advance_time : (s.advance).time = s.time := rfl
@[simp] theorem State.advance_durResponse : (s.advance).durResponse = s.durResponse := rfl
@[simp] theorem State.advance_durInterchar : (s.advance).durInterchar = s.durInterchar := rfl
@[simp] theorem State.advance_durTurnaround : (s.advance).durTurnaround = s.durTurnaround := rfl
@[simp] theorem State.advance_durInterframe : (s.advance).durInterframe = s.durInterframe := rfl
@[simp] theorem State.advance_ctr : (s.advance).ctr = s.ctr := rfl
@[simp] theorem State.advance_txEn : (s.advance).txEn = s.txEn := rfl
@[simp] theorem State.advance_mem : (s.advance).mem = s.mem := rfl
@[simp] theorem State.advance_txOut : (s.advance).txOut = s.txOut := rfl
@[simp] theorem State.advance_hrdata : (s.advance).hrdata = s.hrdata := rfl
@[simp] theorem State.advance_herr : (s.advance).herr = s.herr := rfl
@[simp] theorem State.advance_wire : (s.advance).wire = s.wire := rfl
@[simp] theorem State.advance_pins : (s.advance).pins = s.pins := rfl
@[simp] theorem State.advance_inputs : (s.advance).inputs = s.inputs := rfl
@[simp] theorem State.advance_resets : (s.advance).resets = s.resets := rfl
@[simp] theorem State.advance_staleReads : (s.advance).staleReads = s.staleReads := rfl
@[simp] theorem State.advance_n : (s.advance).n = s.n := rfl
@[simp] theorem State.advance_slot (j : Nat) : (s.advance).slot j = s.slot j := rfl
@[simp] theorem State.advance_arg (j : Fin 5) : (s.advance).arg j = s.arg j := rfl
@[simp] theorem State.advance_wdataByte (j : Nat) : (s.advance).wdataByte j = s.wdataByte j := rfl
@[simp] theorem State.advance_inc (j : Nat) : (s.advance).inc j = s.inc j := rfl
@[simp] theorem State.advance_size : (s.advance).size = s.size := rfl
@[simp] theorem State.advance_full : (s.advance).full = s.full := rfl

/-! ### `State.claim` -/

@[simp] theorem State.claim_params : (s.claim).params = s.params := rfl
@[simp] theorem State.claim_args : (s.claim).args = s.args := rfl
@[simp] theorem State.claim_result : (s.claim).result = s.result := rfl
@[simp] theorem State.claim_fsm : (s.claim).fsm = s.fsm := rfl
@[simp] theorem State.claim_front : (s.claim).front = s.front := rfl
@[simp] theorem State.claim_back : (s.claim).back = s.back := rfl
@[simp] theorem State.claim_active : (s.claim).active = s.advance.active := rfl
@[simp] theorem State.claim_slots : (s.claim).slots = s.slots.set s.advance.active (s.advance.activeSlot.mark .sent) := rfl
@[simp] theorem State.claim_tmr : (s.claim).tmr = s.tmr := rfl
@[simp] theorem State.claim_tmrStart : (s.claim).tmrStart = s.tmrStart := rfl
@[simp] theorem State.claim_time : (s.claim).time = s.time := rfl
@[simp] theorem State.claim_durResponse : (s.claim).durResponse = s.durResponse := rfl
@[simp] theorem State.claim_durInterchar : (s.claim).durInterchar = s.durInterchar := rfl
@[simp] theorem State.claim_durTurnaround : (s.claim).durTurnaround = s.durTurnaround := rfl
@[simp] theorem State.claim_durInterframe : (s.claim).durInterframe = s.durInterframe := rfl
@[simp] theorem State.claim_ctr : (s.claim).ctr = s.ctr := rfl
@[simp] theorem State.claim_txEn : (s.claim).txEn = s.txEn := rfl
@[simp] theorem State.claim_mem : (s.claim).mem = s.mem := rfl
@[simp] theorem State.claim_txOut : (s.claim).txOut = s.txOut := rfl
@[simp] theorem State.claim_hrdata : (s.claim).hrdata = s.hrdata := rfl
@[simp] theorem State.claim_herr : (s.claim).herr = s.herr := rfl
@[simp] theorem State.claim_wire : (s.claim).wire = s.wire := rfl
@[simp] theorem State.claim_pins : (s.claim).pins = s.pins := rfl
@[simp] theorem State.claim_inputs : (s.claim).inputs = s.inputs := rfl
@[simp] theorem State.claim_resets : (s.claim).resets = s.resets := rfl
@[simp] theorem State.claim_staleReads : (s.claim).staleReads = s.staleReads := rfl
@[simp] theorem State.claim_n : (s.claim).n = s.n := rfl
@[simp] theorem State.claim_arg (j : Fin 5) : (s.claim).arg j = s.arg j := rfl
@[simp] theorem State.claim_wdataByte (j : Nat) : (s.claim).wdataByte j = s.wdataByte j := rfl
@[simp] theorem State.claim_inc (j : Nat) : (s.claim).inc j = s.inc j := rfl
@[simp] theorem State.claim_size : (s.claim).size = s.size := rfl
@[simp] theorem State.claim_full : (s.claim).full = s.full := rfl

/-! ### `State.startEmission` -/

@[simp] theorem State.startEmission_params : (s.startEmission).params = s.params := rfl
@[simp] theorem State.startEmission_args : (s.startEmission).args = s.args := rfl
@[simp] theorem State.startEmission_result : (s.startEmission).result = s.result := rfl
@[simp] theorem State.startEmission_fsm : (s.startEmission).fsm = .emission := rfl
@[simp] theorem State.startEmission_front : (s.startEmission).front = s.front := rfl
@[simp] theorem State.startEmission_back : (s.startEmission).back = s.back := rfl
@[simp] theorem State.startEmission_active : (s.startEmission).active = s.active := rfl
@[simp] theorem State.startEmission_slots : (s.startEmission).slots = s.slots := rfl
@[simp] theorem State.startEmission_tmr : (s.startEmission).tmr = s.activeSlot.waitTimer := rfl
@[simp] theorem State.startEmission_tmrStart : (s.startEmission).tmrStart = s.time := rfl
@[simp] theorem State.startEmission_time : (s.startEmission).time = s.time := rfl
@[simp] theorem State.startEmission_durResponse : (s.startEmission).durResponse = s.durResponse := rfl
@[simp] theorem State.startEmission_durInterchar : (s.startEmission).durInterchar = s.durInterchar := rfl
@[simp] theorem State.startEmission_durTurnaround : (s.startEmission).durTurnaround = s.durTurnaround := rfl
@[simp] theorem State.startEmission_durInterframe : (s.startEmission).durInterframe = s.durInterframe := rfl
@[simp] theorem State.startEmission_ctr : (s.startEmission).ctr = s.ctr := rfl
@[simp] theorem State.startEmission_txEn : (s.startEmission).txEn = true := rfl
@[simp] theorem State.startEmission_mem : (s.startEmission).mem = s.mem := rfl
@[simp] theorem State.startEmission_txOut : (s.startEmission).txOut = s.txOut := rfl
@[simp] theorem State.startEmission_hrdata : (s.startEmission).hrdata = s.hrdata := rfl
@[simp] theorem State.startEmission_herr : (s.startEmission).herr = s.herr := rfl
@[simp] theorem State.startEmission_wire : (s.startEmission).wire = s.wire := rfl
@[simp] theorem State.startEmission_pins : (s.startEmission).pins = s.pins := rfl
@[simp] theorem State.startEmission_inputs : (s.startEmission).inputs = s.inputs := rfl
@[simp] theorem State.startEmission_resets : (s.startEmission).resets = s.resets := rfl
@[simp] theorem State.startEmission_staleReads : (s.startEmission).staleReads = s.staleReads := rfl
@[simp] theorem State.startEmission_n : (s.startEmission).n = s.n := rfl
@[simp] theorem State.startEmission_slot (j : Nat) : (s.startEmission).slot j = s.slot j := rfl
@[simp] theorem State.startEmission_activeSlot : (s.startEmission).activeSlot = s.activeSlot := rfl
@[simp] theorem State.startEmission_arg (j : Fin 5) : (s.startEmission).arg j = s.arg j := rfl
@[simp] theorem State.startEmission_wdataByte (j : Nat) : (s.startEmission).wdataByte j = s.wdataByte j := rfl
@[simp] theorem State.startEmission_inc (j : Nat) : (s.startEmission).inc j = s.inc j := rfl
@[simp] theorem State.startEmission_size : (s.startEmission).size = s.size := rfl
@[simp] theorem State.startEmission_full : (s.startEmission).full = s.full := rfl

/-! ### `State.dequeueFront` -/

@[simp] theorem State.dequeueFront_params : (s.dequeueFront).params = s.params := rfl
@[simp] theorem State.dequeueFront_args : (s.dequeueFront).args = s.args := rfl
@[simp] theorem State.dequeueFront_result : (s.dequeueFront).result = s.result := rfl
@[simp] theorem State.dequeueFront_fsm : (s.dequeueFront).fsm = s.fsm := rfl
@[simp] theorem State.dequeueFront_front : (s.dequeueFront).front = s.inc s.front := rfl
@[simp] theorem State.dequeueFront_back : (s.dequeueFront).back = s.back := rfl
@[simp] theorem State.dequeueFront_active : (s.dequeueFront).active = s.active := rfl
@[simp] theorem State.dequeueFront_slots : (s.dequeueFront).slots = s.slots.set s.front ((s.slot s.front).mark .dequeued) := rfl
@[simp] theorem State.dequeueFront_tmr : (s.dequeueFront).tmr = s.tmr := rfl
@[simp] theorem State.dequeueFront_tmrStart : (s.dequeueFront).tmrStart = s.tmrStart := rfl
@[simp] theorem State.dequeueFront_time : (s.dequeueFront).time = s.time := rfl
@[simp] theorem State.dequeueFront_durResponse : (s.dequeueFront).durResponse = s.durResponse := rfl
@[simp] theorem State.dequeueFront_durInterchar : (s.dequeueFront).durInterchar = s.durInterchar := rfl
@[simp] theorem State.dequeueFront_durTurnaround : (s.dequeueFront).durTurnaround = s.durTurnaround := rfl
@[simp] theorem State.dequeueFront_durInterframe : (s.dequeueFront).durInterframe = s.durInterframe := rfl
@[simp] theorem State.dequeueFront_ctr : (s.dequeueFront).ctr = s.ctr := rfl
@[simp] theorem State.dequeueFront_txEn : (s.dequeueFront).txEn = s.txEn := rfl
@[simp] theorem State.dequeueFront_mem : (s.dequeueFront).mem = s.mem := rfl
@[simp] theorem State.dequeueFront_txOut : (s.dequeueFront).txOut = s.txOut := rfl
@[simp] theorem State.dequeueFront_hrdata : (s.dequeueFront).hrdata = s.hrdata := rfl
@[simp] theorem State.dequeueFront_herr : (s.dequeueFront).herr = s.herr := rfl
@[simp] theorem State.dequeueFront_wire : (s.dequeueFront).wire = s.wire := rfl
@[simp] theorem State.dequeueFront_pins : (s.dequeueFront).pins = s.pins := rfl
@[simp] theorem State.dequeueFront_inputs : (s.dequeueFront).inputs = s.inputs := rfl
@[simp] theorem State.dequeueFront_resets : (s.dequeueFront).resets = s.resets := rfl
@[simp] theorem State.dequeueFront_staleReads : (s.dequeueFront).staleReads = s.staleReads := rfl
@[simp] theorem State.dequeueFront_n : (s.dequeueFront).n = s.n := rfl
@[simp] theorem State.dequeueFront_arg (j : Fin 5) : (s.dequeueFront).arg j = s.arg j := rfl
@[simp] theorem State.dequeueFront_wdataByte (j : Nat) : (s.dequeueFront).wdataByte j = s.wdataByte j := rfl
@[simp] theorem State.dequeueFront_inc (j : Nat) : (s.dequeueFront).inc j = s.inc j := rfl

/-! ### `State.clearQueue` -/

@[simp] theorem State.clearQueue_params : (s.clearQueue).params = s.params := rfl
@[simp] theorem State.clearQueue_args : (s.clearQueue).args = s.args := rfl
@[simp] theorem State.clearQueue_result : (s.clearQueue).result = s.result := rfl
@[simp] theorem State.clearQueue_fsm : (s.clearQueue).fsm = s.fsm := rfl
@[simp] theorem State.clearQueue_front : (s.clearQueue).front = 0 := rfl
@[simp] theorem State.clearQueue_back : (s.clearQueue).back = 0 := rfl
@[simp] theorem State.clearQueue_active : (s.clearQueue).active = 0 := rfl
@[simp] theorem State.clearQueue_slots : (s.clearQueue).slots = s.slots.map Slot.reset := rfl
@[simp] theorem State.clearQueue_tmr : (s.clearQueue).tmr = s.tmr := rfl
@[simp] theorem State.clearQueue_tmrStart : (s.clearQueue).tmrStart = s.tmrStart := rfl
@[simp] theorem State.clearQueue_time : (s.clearQueue).time = s.time := rfl
@[simp] theorem State.clearQueue_durResponse : (s.clearQueue).durResponse = s.durResponse := rfl
@[simp] theorem State.clearQueue_durInterchar : (s.clearQueue).durInterchar = s.durInterchar := rfl
@[simp] theorem State.clearQueue_durTurnaround : (s.clearQueue).durTurnaround = s.durTurnaround := rfl
@[simp] theorem State.clearQueue_durInterframe : (s.clearQueue).durInterframe = s.durInterframe := rfl
@[simp] theorem State.clearQueue_ctr : (s.clearQueue).ctr = s.ctr := rfl
@[simp] theorem State.clearQueue_txEn : (s.clearQueue).txEn = s.txEn := rfl
@[simp] theorem State.clearQueue_mem : (s.clearQueue).mem = s.mem := rfl
@[simp] theorem State.clearQueue_txOut : (s.clearQueue).txOut = s.txOut := rfl
@[simp] theorem State.clearQueue_hrdata : (s.clearQueue).hrdata = s.hrdata := rfl
@[simp] theorem State.clearQueue_herr : (s.clearQueue).herr = s.herr := rfl
@[simp] theorem State.clearQueue_wire : (s.clearQueue).wire = s.wire := rfl
@[simp] theorem State.clearQueue_pins : (s.clearQueue).pins = s.pins := rfl
@[simp] theorem State.clearQueue_inputs : (s.clearQueue).inputs = s.inputs := rfl
@[simp] theorem State.clearQueue_resets : (s.clearQueue).resets = s.resets := rfl
@[simp] theorem State.clearQueue_staleReads : (s.clearQueue).staleReads = s.staleReads := rfl
@[simp] theorem State.clearQueue_n : (s.clearQueue).n = s.n := rfl
@[simp] theorem State.clearQueue_arg (j : Fin 5) : (s.clearQueue).arg j = s.arg j := rfl
@[simp] theorem State.clearQueue_wdataByte (j : Nat) : (s.clearQueue).wdataByte j = s.wdataByte j := rfl
@[simp] theorem State.clearQueue_inc (j : Nat) : (s.clearQueue).inc j = s.inc j := rfl

/-! ### `State.refuseRead` -/

@[simp] theorem State.refuseRead_params : (s.refuseRead).params = s.params := rfl
@[simp] theorem State.refuseRead_args : (s.refuseRead).args = s.args := rfl
@[simp] theorem State.refuseRead_result : (s.refuseRead).result = s.result := rfl
@[simp] theorem State.refuseRead_fsm : (s.refuseRead).fsm = s.fsm := rfl
@[simp] theorem State.refuseRead_front : (s.refuseRead).front = s.front := rfl
@[simp] theorem State.refuseRead_back : (s.refuseRead).back = s.back := rfl
@[simp] theorem State.refuseRead_active : (s.refuseRead).active = s.active := rfl
@[simp] theorem State.refuseRead_slots : (s.refuseRead).slots = s.slots := rfl
@[simp] theorem State.refuseRead_tmr : (s.refuseRead).tmr = s.tmr := rfl
@[simp] theorem State.refuseRead_tmrStart : (s.refuseRead).tmrStart = s.tmrStart := rfl
@[simp] theorem State.refuseRead_time : (s.refuseRead).time = s.time := rfl
@[simp] theorem State.refuseRead_durResponse : (s.refuseRead).durResponse = s.durResponse := rfl
@[simp] theorem State.refuseRead_durInterchar : (s.refuseRead).durInterchar = s.durInterchar := rfl
@[simp] theorem State.refuseRead_durTurnaround : (s.refuseRead).durTurnaround = s.durTurnaround := rfl
@[simp] theorem State.refuseRead_durInterframe : (s.refuseRead).durInterframe = s.durInterframe := rfl
@[simp] theorem State.refuseRead_ctr : (s.refuseRead).ctr = s.ctr := rfl
@[simp] theorem State.refuseRead_txEn : (s.refuseRead).txEn = s.txEn := rfl
@[simp] theorem State.refuseRead_mem : (s.refuseRead).mem = s.mem := rfl
@[simp] theorem State.refuseRead_txOut : (s.refuseRead).txOut = s.txOut := rfl
@[simp] theorem State.refuseRead_hrdata : (s.refuseRead).hrdata = some 0 := rfl
@[simp] theorem State.refuseRead_herr : (s.refuseRead).herr = true := rfl
@[simp] theorem State.refuseRead_wire : (s.refuseRead).wire = s.wire := rfl
@[simp] theorem State.refuseRead_pins : (s.refuseRead).pins = s.pins := rfl
@[simp] theorem State.refuseRead_inputs : (s.refuseRead).inputs = s.inputs := rfl
@[simp] theorem State.refuseRead_resets : (s.refuseRead).resets = s.resets := rfl
@[simp] theorem State.refuseRead_staleReads : (s.refuseRead).staleReads = s.staleReads := rfl
@[simp] theorem State.refuseRead_n : (s.refuseRead).n = s.n := rfl
@[simp] theorem State.refuseRead_slot (j : Nat) : (s.refuseRead).slot j = s.slot j := rfl
@[simp] theorem State.refuseRead_activeSlot : (s.refuseRead).activeSlot = s.activeSlot := rfl
@[simp] theorem State.refuseRead_arg (j : Fin 5) : (s.refuseRead).arg j = s.arg j := rfl
@[simp] theorem State.refuseRead_wdataByte (j : Nat) : (s.refuseRead).wdataByte j = s.wdataByte j := rfl
@[simp] theorem State.refuseRead_inc (j : Nat) : (s.refuseRead).inc j = s.inc j := rfl
@[simp] theorem State.refuseRead_size : (s.refuseRead).size = s.size := rfl
@[simp] theorem State.refuseRead_full : (s.refuseRead).full = s.full := rfl

/-! ### `State.refuseWrite` -/

@[simp] theorem State.refuseWrite_params : (s.refuseWrite).params = s.params := rfl
@[simp] theorem State.refuseWrite_args : (s.refuseWrite).args = s.args := rfl
@[simp] theorem State.refuseWrite_result : (s.refuseWrite).result = s.result := rfl
@[simp] theorem State.refuseWrite_fsm : (s.refuseWrite).fsm = s.fsm := rfl
@[simp] theorem State.refuseWrite_front : (s.refuseWrite).front = s.front := rfl
@[simp] theorem State.refuseWrite_back : (s.refuseWrite).back = s.back := rfl
@[simp] theorem State.refuseWrite_active : (s.refuseWrite).active = s.active := rfl
@[simp] theorem State.refuseWrite_slots : (s.refuseWrite).slots = s.slots := rfl
@[simp] theorem State.refuseWrite_tmr : (s.refuseWrite).tmr = s.tmr := rfl
@[simp] theorem State.refuseWrite_tmrStart : (s.refuseWrite).tmrStart = s.tmrStart := rfl
@[simp] theorem State.refuseWrite_time : (s.refuseWrite).time = s.time := rfl
@[simp] theorem State.refuseWrite_durResponse : (s.refuseWrite).durResponse = s.durResponse := rfl
@[simp] theorem State.refuseWrite_durInterchar : (s.refuseWrite).durInterchar = s.durInterchar := rfl
@[simp] theorem State.refuseWrite_durTurnaround : (s.refuseWrite).durTurnaround = s.durTurnaround := rfl
@[simp] theorem State.refuseWrite_durInterframe : (s.refuseWrite).durInterframe = s.durInterframe := rfl
@[simp] theorem State.refuseWrite_ctr : (s.refuseWrite).ctr = s.ctr := rfl
@[simp] theorem State.refuseWrite_txEn : (s.refuseWrite).txEn = s.txEn := rfl
@[simp] theorem State.refuseWrite_mem : (s.refuseWrite).mem = s.mem := rfl
@[simp] theorem State.refuseWrite_txOut : (s.refuseWrite).txOut = s.txOut := rfl
@[simp] theorem State.refuseWrite_hrdata : (s.refuseWrite).hrdata = s.hrdata := rfl
@[simp] theorem State.refuseWrite_herr : (s.refuseWrite).herr = true := rfl
@[simp] theorem State.refuseWrite_wire : (s.refuseWrite).wire = s.wire := rfl
@[simp] theorem State.refuseWrite_pins : (s.refuseWrite).pins = s.pins := rfl
@[simp] theorem State.refuseWrite_inputs : (s.refuseWrite).inputs = s.inputs := rfl
@[simp] theorem State.refuseWrite_resets : (s.refuseWrite).resets = s.resets := rfl
@[simp] theorem State.refuseWrite_staleReads : (s.refuseWrite).staleReads = s.staleReads := rfl
@[simp] theorem State.refuseWrite_n : (s.refuseWrite).n = s.n := rfl
@[simp] theorem State.refuseWrite_slot (j : Nat) : (s.refuseWrite).slot j = s.slot j := rfl
@[simp] theorem State.refuseWrite_activeSlot : (s.refuseWrite).activeSlot = s.activeSlot := rfl
@[simp] theorem State.refuseWrite_arg (j : Fin 5) : (s.refuseWrite).arg j = s.arg j := rfl
@[simp] theorem State.refuseWrite_wdataByte (j : Nat) : (s.refuseWrite).wdataByte j = s.wdataByte j := rfl
@[simp] theorem State.refuseWrite_inc (j : Nat) : (s.refuseWrite).inc j = s.inc j := rfl
@[simp] theorem State.refuseWrite_size : (s.refuseWrite).size = s.size := rfl
@[simp] theorem State.refuseWrite_full : (s.refuseWrite).full = s.full := rfl

/-! ### `State.startCycle` -/

@[simp] theorem State.startCycle_params : (s.startCycle).params = s.params := rfl
@[simp] theorem State.startCycle_args : (s.startCycle).args = s.args := rfl
@[simp] theorem State.startCycle_result : (s.startCycle).result = s.result := rfl
@[simp] theorem State.startCycle_fsm : (s.startCycle).fsm = s.fsm := rfl
@[simp] theorem State.startCycle_front : (s.startCycle).front = s.front := rfl
@[simp] theorem State.startCycle_back : (s.startCycle).back = s.back := rfl
@[simp] theorem State.startCycle_active : (s.startCycle).active = s.active := rfl
@[simp] theorem State.startCycle_slots : (s.startCycle).slots = s.slots := rfl
@[simp] theorem State.startCycle_tmr : (s.startCycle).tmr = s.tmr := rfl
@[simp] theorem State.startCycle_tmrStart : (s.startCycle).tmrStart = s.tmrStart := rfl
@[simp] theorem State.startCycle_time : (s.startCycle).time = s.time := rfl
@[simp] theorem State.startCycle_durResponse : (s.startCycle).durResponse = s.durResponse := rfl
@[simp] theorem State.startCycle_durInterchar : (s.startCycle).durInterchar = s.durInterchar := rfl
@[simp] theorem State.startCycle_durTurnaround : (s.startCycle).durTurnaround = s.durTurnaround := rfl
@[simp] theorem State.startCycle_durInterframe : (s.startCycle).durInterframe = s.durInterframe := rfl
@[simp] theorem State.startCycle_ctr : (s.startCycle).ctr = s.ctr := rfl
@[simp] theorem State.startCycle_txEn : (s.startCycle).txEn = s.txEn := rfl
@[simp] theorem State.startCycle_mem : (s.startCycle).mem = s.mem := rfl
@[simp] theorem State.startCycle_txOut : (s.startCycle).txOut = none := rfl
@[simp] theorem State.startCycle_hrdata : (s.startCycle).hrdata = none := rfl
@[simp] theorem State.startCycle_herr : (s.startCycle).herr = false := rfl
@[simp] theorem State.startCycle_wire : (s.startCycle).wire = s.wire := rfl
@[simp] theorem State.startCycle_pins : (s.startCycle).pins = s.nextPins := rfl
@[simp] theorem State.startCycle_inputs : (s.startCycle).inputs = s.inputs.tail := rfl
@[simp] theorem State.startCycle_resets : (s.startCycle).resets = s.resets := rfl
@[simp] theorem State.startCycle_staleReads : (s.startCycle).staleReads = s.staleReads := rfl
@[simp] theorem State.startCycle_n : (s.startCycle).n = s.n := rfl
@[simp] theorem State.startCycle_slot (j : Nat) : (s.startCycle).slot j = s.slot j := rfl
@[simp] theorem State.startCycle_activeSlot : (s.startCycle).activeSlot = s.activeSlot := rfl
@[simp] theorem State.startCycle_arg (j : Fin 5) : (s.startCycle).arg j = s.arg j := rfl
@[simp] theorem State.startCycle_wdataByte (j : Nat) : (s.startCycle).wdataByte j = s.wdataByte j := rfl
@[simp] theorem State.startCycle_inc (j : Nat) : (s.startCycle).inc j = s.inc j := rfl
@[simp] theorem State.startCycle_size : (s.startCycle).size = s.size := rfl
@[simp] theorem State.startCycle_full : (s.startCycle).full = s.full := rfl

/-! ### `State.consumed` -/

@[simp] theorem State.consumed_params : (s.consumed).params = s.params := rfl
@[simp] theorem State.consumed_args : (s.consumed).args = s.args := rfl
@[simp] theorem State.consumed_result : (s.consumed).result = s.result := rfl
@[simp] theorem State.consumed_fsm : (s.consumed).fsm = s.fsm := rfl
@[simp] theorem State.consumed_front : (s.consumed).front = s.front := rfl
@[simp] theorem State.consumed_back : (s.consumed).back = s.back := rfl
@[simp] theorem State.consumed_active : (s.consumed).active = s.active := rfl
@[simp] theorem State.consumed_slots : (s.consumed).slots = s.slots := rfl
@[simp] theorem State.consumed_tmr : (s.consumed).tmr = s.tmr := rfl
@[simp] theorem State.consumed_tmrStart : (s.consumed).tmrStart = s.tmrStart := rfl
@[simp] theorem State.consumed_time : (s.consumed).time = s.time := rfl
@[simp] theorem State.consumed_durResponse : (s.consumed).durResponse = s.durResponse := rfl
@[simp] theorem State.consumed_durInterchar : (s.consumed).durInterchar = s.durInterchar := rfl
@[simp] theorem State.consumed_durTurnaround : (s.consumed).durTurnaround = s.durTurnaround := rfl
@[simp] theorem State.consumed_durInterframe : (s.consumed).durInterframe = s.durInterframe := rfl
@[simp] theorem State.consumed_ctr : (s.consumed).ctr = s.ctr := rfl
@[simp] theorem State.consumed_txEn : (s.consumed).txEn = s.txEn := rfl
@[simp] theorem State.consumed_mem : (s.consumed).mem = s.mem := rfl
@[simp] theorem State.consumed_txOut : (s.consumed).txOut = s.txOut := rfl
@[simp] theorem State.consumed_hrdata : (s.consumed).hrdata = s.hrdata := rfl
@[simp] theorem State.consumed_herr : (s.consumed).herr = s.herr := rfl
@[simp] theorem State.consumed_wire : (s.consumed).wire = s.wire := rfl
@[simp] theorem State.consumed_pins : (s.consumed).pins = consume s.pins := rfl
@[simp] theorem State.consumed_inputs : (s.consumed).inputs = s.inputs := rfl
@[simp] theorem State.consumed_resets : (s.consumed).resets = s.resets := rfl
@[simp] theorem State.consumed_staleReads : (s.consumed).staleReads = s.staleReads := rfl
@[simp] theorem State.consumed_n : (s.consumed).n = s.n := rfl
@[simp] theorem State.consumed_slot (j : Nat) : (s.consumed).slot j = s.slot j := rfl
@[simp] theorem State.consumed_activeSlot : (s.consumed).activeSlot = s.activeSlot := rfl
@[simp] theorem State.consumed_arg (j : Fin 5) : (s.consumed).arg j = s.arg j := rfl
@[simp] theorem State.consumed_wdataByte (j : Nat) : (s.consumed).wdataByte j = s.wdataByte j := rfl
@[simp] theorem State.consumed_inc (j : Nat) : (s.consumed).inc j = s.inc j := rfl
@[simp] theorem State.consumed_size : (s.consumed).size = s.size := rfl
@[simp] theorem State.consumed_full : (s.consumed).full = s.full := rfl

end Sys2Proof.Machine
end

