-- ==== Sys2Proof/Laws/Slots.lean ====
section
/-! SUPPORT. What the operations on slots do to each slot, and the flags and counters of an anomaly. -/

namespace Sys2Proof.Machine

theorem State.slot_setSlot_same (s : State) {i : Nat} (h : i < s.slots.length) (t : Slot) :
    (s.setSlot i t).slot i = t := by
  simp [State.slot, State.setSlot, h]

theorem State.slot_setSlot_other (s : State) {i j : Nat} (h : j ≠ i) (t : Slot) :
    (s.setSlot i t).slot j = s.slot j := by
  simp [State.slot, State.setSlot, Ne.symm h]

@[simp] theorem State.length_setSlot (s : State) (i : Nat) (t : Slot) :
    (s.setSlot i t).slots.length = s.slots.length := by
  simp [State.setSlot]

theorem State.activeSlot_setActive (s : State) (h : s.active < s.slots.length) (t : Slot) :
    (s.setActive t).activeSlot = t :=
  s.slot_setSlot_same h t

theorem State.slot_setActive_other (s : State) {j : Nat} (h : j ≠ s.active) (t : Slot) :
    (s.setActive t).slot j = s.slot j :=
  s.slot_setSlot_other h t

theorem State.mem_slots_of_lt (s : State) {i : Nat} (h : i < s.slots.length) : s.slot i ∈ s.slots := by
  simp [State.slot, h]

/-- A slot outside the store reads as blank. -/
theorem State.slot_of_le (s : State) {i : Nat} (h : s.slots.length ≤ i) : s.slot i = Slot.blank := by
  simp [State.slot, List.getElem?_eq_none h]

/-- What raising an anomaly can do, all of it. -/
theorem State.invalidate_eq (s : State) (a : Anomaly) :
    s.invalidate a = { s with
      slots := s.slots.set s.active (s.activeSlot.flag a)
      ctr := s.ctr.set a.counter (satInc s.ctr[a.counter]) } := rfl

theorem State.invalidate_activeSlot (s : State) (h : s.active < s.slots.length) (a : Anomaly) :
    (s.invalidate a).activeSlot = s.activeSlot.flag a :=
  s.activeSlot_setActive h _

theorem State.invalidate_slot_other (s : State) {j : Nat} (h : j ≠ s.active) (a : Anomaly) :
    (s.invalidate a).slot j = s.slot j :=
  s.slot_setActive_other h _

theorem State.markFinished_activeSlot (s : State) (h : s.active < s.slots.length) :
    s.markFinished.activeSlot = s.activeSlot.mark .finished :=
  s.activeSlot_setActive h _

theorem State.markFinished_slot_other (s : State) {j : Nat} (h : j ≠ s.active) :
    s.markFinished.slot j = s.slot j :=
  s.slot_setActive_other h _

theorem State.ctr_bump_same (s : State) (k : Fin 18) : (s.bump k).ctr[k] = satInc s.ctr[k] := by
  simp [State.bump]

theorem State.ctr_bump_other (s : State) {k j : Fin 18} (h : j ≠ k) : (s.bump k).ctr[j] = s.ctr[j] := by
  have h' : (k : Nat) ≠ j := fun e => h (Fin.ext e.symm)
  simp [State.bump, h']

theorem satInc_toNat (c : Word) : (satInc c).toNat = min (c.toNat + 1) (2 ^ 32 - 1) := by
  unfold satInc
  split
  · subst_vars; rfl
  · rename_i h
    have hc : c.toNat ≠ 4294967295 := fun e => h (BitVec.eq_of_toNat_eq e)
    have := c.isLt
    have h1 : (1 : Word).toNat = 1 := rfl
    rw [BitVec.toNat_add, h1]
    omega

/-- Changes of slots and counters only, one after the other, are a change of slots and counters only. -/
theorem slotsCtr_trans {a b c : State} (hab : { b with slots := a.slots, ctr := a.ctr } = a)
    (hbc : { c with slots := b.slots, ctr := b.ctr } = b) : { c with slots := a.slots, ctr := a.ctr } = a := by
  have h : { c with slots := a.slots, ctr := a.ctr } =
      { ({ c with slots := b.slots, ctr := b.ctr } : State) with slots := a.slots, ctr := a.ctr } := rfl
  rw [h, hbc, hab]

/-- A conditional anomaly leaves everything but slots and counters. -/
theorem State.invalidateIf_frame (s : State) (c : Bool) (a : Anomaly) :
    { s.invalidateIf c a with slots := s.slots, ctr := s.ctr } = s := by
  cases c <;> rfl

theorem State.checkAddress_frame (s : State) : { s.checkAddress with slots := s.slots, ctr := s.ctr } = s :=
  s.invalidateIf_frame _ _

theorem State.checkCrc_frame (s : State) : { s.checkCrc with slots := s.slots, ctr := s.ctr } = s :=
  s.invalidateIf_frame _ _

theorem State.countException_slotsCtr (s : State) :
    { s.countException with slots := s.slots, ctr := s.ctr } = s := by
  unfold State.countException
  split
  · cases exceptionCounter (s.activeSlot.rxByte 2) <;> rfl
  · rfl

theorem State.markFinished_slotsCtr (s : State) : { s.markFinished with slots := s.slots, ctr := s.ctr } = s := rfl

/-- Validation writes slots and counters and nothing else. -/
theorem State.validate_frame (s : State) : { s.validate with slots := s.slots, ctr := s.ctr } = s :=
  slotsCtr_trans (slotsCtr_trans (slotsCtr_trans s.checkAddress_frame s.checkAddress.checkCrc_frame)
    (State.countException_slotsCtr _)) (State.markFinished_slotsCtr _)

theorem State.rxFlags_frame (s : State) (e : BitVec 4) : { s.rxFlags e with slots := s.slots, ctr := s.ctr } = s :=
  slotsCtr_trans (slotsCtr_trans (slotsCtr_trans (s.invalidateIf_frame _ _) (State.invalidateIf_frame _ _ _))
    (State.invalidateIf_frame _ _ _)) (State.invalidateIf_frame _ _ _)

theorem State.pushRxByte_frame (s : State) (b : Byte) : { s.pushRxByte b with slots := s.slots, ctr := s.ctr } = s := by
  unfold State.pushRxByte
  split <;> rfl

/-- `pop_tx_byte` with a byte left advances `tx_idx` and nothing else (41_transaction.md R123). -/
theorem Slot.popTxByte_of_unsent {t : Slot} (h : t.isFullySent = false) :
    t.popTxByte = { t with txIdx := t.txIdx + 1 } := by
  simp [Slot.popTxByte, h]

/-- `pop_tx_byte` on an exhausted buffer changes nothing (93_implementation_defined.md U3). -/
theorem Slot.popTxByte_of_sent {t : Slot} (h : t.isFullySent = true) : t.popTxByte = t := by
  simp [Slot.popTxByte, h]

/-- `satInc` never lowers a counter. -/
theorem satInc_le (c : Word) : c.toNat ≤ (satInc c).toNat := by
  have := c.isLt
  rw [satInc_toNat]
  omega

end Sys2Proof.Machine
end

