-- ==== Sys2Proof/Laws/Queue.lean ====
section
/-! SUPPORT. Arithmetic of the ring and everything `encodeAndEnqueue`, `enqueue`, `advance` and `dequeueFront` can do. -/

namespace Sys2Proof.Machine

theorem mod_of_window {a n : Nat} (h1 : n ≤ a) (h2 : a < 2 * n) : a % n = a - n := by
  rw [Nat.mod_eq_sub_mod h1, Nat.mod_eq_of_lt (by omega)]

theorem State.n_pos (s : State) : 0 < s.n := Nat.two_pow_pos _

theorem State.Wf.two_le_n {s : State} (h : s.Wf) : 2 ≤ s.n := by
  have hp := h.params
  simp only [Params.wf, Bool.and_eq_true, decide_eq_true_eq] at hp
  calc 2 = 2 ^ 1 := rfl
    _ ≤ 2 ^ s.params.idxW := Nat.pow_le_pow_right (by decide) hp.1

theorem State.Wf.n_le {s : State} (h : s.Wf) : s.n ≤ 256 := by
  have hp := h.params
  simp only [Params.wf, Bool.and_eq_true, decide_eq_true_eq] at hp
  calc 2 ^ s.params.idxW ≤ 2 ^ 8 := Nat.pow_le_pow_right (by decide) hp.2
    _ = 256 := rfl

theorem State.Wf.front_lt {s : State} (h : s.Wf) : s.front < s.slots.length := h.slots ▸ h.front
theorem State.Wf.back_lt {s : State} (h : s.Wf) : s.back < s.slots.length := h.slots ▸ h.back
theorem State.Wf.active_lt {s : State} (h : s.Wf) : s.active < s.slots.length := h.slots ▸ h.active

theorem Slot.blank_wf : Slot.blank.Wf := ⟨by decide, by decide, by decide, by decide, by decide, by decide⟩

/-- Every slot that can be named is well formed. -/
theorem State.Wf.slot_wf {s : State} (h : s.Wf) (i : Nat) : (s.slot i).Wf := by
  rcases Nat.lt_or_ge i s.slots.length with hi | hi
  · exact h.slot _ (s.mem_slots_of_lt hi)
  · rw [s.slot_of_le hi]; exact Slot.blank_wf

theorem State.inc_lt (s : State) (i : Nat) : s.inc i < s.n := Nat.mod_lt _ s.n_pos

theorem State.size_lt (s : State) : s.size < s.n := Nat.mod_lt _ s.n_pos

/-- `full()` is the absence of room (42_message_queue.md R143). -/
theorem State.full_iff_noRoom {s : State} (h : s.Wf) : s.full = true ↔ s.noRoom := by
  have hf := h.front
  have hb := h.back
  have h2 := h.two_le_n
  simp only [State.full, State.size, State.noRoom, beq_iff_eq]
  rcases Nat.lt_or_ge s.back s.front with hlt | hge
  · rw [Nat.mod_eq_of_lt (by omega : s.back + s.n - s.front < s.n), Nat.mod_eq_of_lt (by omega : s.back + 1 < s.n)]
    omega
  · rw [mod_of_window (by omega) (by omega)]
    rcases Nat.lt_or_ge (s.back + 1) s.n with hl | hg
    · rw [Nat.mod_eq_of_lt hl]; omega
    · rw [mod_of_window hg (by omega)]; omega

/-- A queue that is not full is changed by `enqueue` in one slot and `BACK` only. -/
theorem State.enqueue_of_not_full {s : State} (h : s.full = false) (r : Request) :
    s.enqueue r = some { s with
      slots := s.slots.set s.back (((s.slot s.back).overwrite r).mark .queued)
      back := s.inc s.back } := by
  simp [State.enqueue, h, State.setSlot]

theorem State.enqueue_of_full {s : State} (h : s.full = true) (r : Request) : s.enqueue r = none := by
  simp [State.enqueue, h]

theorem load_of_fits {dev fc : Byte} {p : List Byte} {exp : Nat} {known : Bool}
    (hp : p.length + 4 ≤ Config.txCap) (he : known = true → exp ≤ Config.rxCap) :
    load dev fc p exp known =
      some { frame := frameOf dev fc p, expLen := if known then exp else 0, lenKnown := known } := by
  have h1 : ¬ Config.txCap < p.length + 4 := by omega
  have h2 : ¬ (known = true ∧ Config.rxCap < exp) := by
    rintro ⟨hk, hx⟩
    have := he hk
    omega
  simp [load, h1, h2]

theorem length_frameOf (dev fc : Byte) (p : List Byte) : (frameOf dev fc p).length = p.length + 4 := by
  simp [frameOf, le16]

/-- The request frame is address, function code and payload followed by their CRC. -/
theorem frameOf_eq_withCrc (dev fc : Byte) (p : List Byte) : frameOf dev fc p = withCrc (dev :: fc :: p) := rfl

/-- Everything the common flow of the encoders can do (44_pdu_encoders.md R190). -/
theorem State.encodeAndEnqueue_cases (s : State) (dev fc : Byte) (ok : Bool) (p1 p2 : List Byte) (exp : Nat)
    (known : Bool) :
    s.encodeAndEnqueue dev fc ok p1 p2 exp known = s.rejectCommand .bounds ∨
    s.encodeAndEnqueue dev fc ok p1 p2 exp known = s.rejectCommand .queueFull ∨
    ∃ r, s.full = false ∧ ok = true ∧ load dev fc (p1 ++ p2) exp known = some r ∧
      s.encodeAndEnqueue dev fc ok p1 p2 exp known =
        ({ s with
          slots := s.slots.set s.back (((s.slot s.back).overwrite r).mark .queued)
          back := s.inc s.back } : State).commandDone (resultOk 0) := by
  cases ok with
  | false => exact .inl rfl
  | true =>
    simp only [State.encodeAndEnqueue, load2, if_true]
    cases hl : load dev fc (p1 ++ p2) exp known with
    | none => exact .inl rfl
    | some r =>
      cases hf : s.full with
      | true => simp only [State.enqueue_of_full hf]; exact .inr (.inl trivial)
      | false => simp only [State.enqueue_of_not_full hf]; exact .inr (.inr ⟨r, trivial, trivial, rfl, rfl⟩)

/-- The common flow when the bounds hold, the frame fits, and the queue has room. -/
theorem State.encodeAndEnqueue_accepts {s : State} {dev fc : Byte} {ok : Bool} {p1 p2 : List Byte} {exp : Nat}
    {known : Bool} (hok : ok = true) (hp : p1.length + p2.length + 4 ≤ Config.txCap)
    (he : known = true → exp ≤ Config.rxCap) (hf : s.full = false) :
    s.encodeAndEnqueue dev fc ok p1 p2 exp known =
      ({ s with
        slots := s.slots.set s.back (((s.slot s.back).overwrite
          { frame := frameOf dev fc (p1 ++ p2), expLen := if known then exp else 0, lenKnown := known }).mark .queued)
        back := s.inc s.back } : State).commandDone (resultOk 0) := by
  subst hok
  simp only [State.encodeAndEnqueue, load2, if_true]
  rw [load_of_fits (by simpa using hp) he]
  simp only [State.enqueue_of_not_full hf]

theorem State.encodeAndEnqueue_full {s : State} {dev fc : Byte} {ok : Bool} {p1 p2 : List Byte} {exp : Nat}
    {known : Bool} (hok : ok = true) (hp : p1.length + p2.length + 4 ≤ Config.txCap)
    (he : known = true → exp ≤ Config.rxCap) (hf : s.full = true) :
    s.encodeAndEnqueue dev fc ok p1 p2 exp known = s.rejectCommand .queueFull := by
  subst hok
  simp only [State.encodeAndEnqueue, load2, if_true]
  rw [load_of_fits (by simpa using hp) he]
  simp only [State.enqueue_of_full hf]

theorem State.encodeAndEnqueue_bounds (s : State) (dev fc : Byte) (p1 p2 : List Byte) (exp : Nat) (known : Bool) :
    s.encodeAndEnqueue dev fc false p1 p2 exp known = s.rejectCommand .bounds := rfl

theorem inRange_iff (lo hi : Nat) (v : Half) : inRange lo hi v = true ↔ lo ≤ v.toNat ∧ v.toNat ≤ hi := by
  simp [inRange]

theorem ceil8_eq (c : Nat) : ceil8 c = (c + 7) / 8 := by
  simp [ceil8, Nat.shiftRight_eq_div_pow]

/-- An overwritten slot holds exactly the loaded frame. -/
theorem Slot.txFrame_overwrite (t : Slot) (r : Request) : (t.overwrite r).txFrame = r.frame := by
  simp [Slot.txFrame, Slot.overwrite]

theorem Slot.txFrame_mark (t : Slot) (l : Life) : (t.mark l).txFrame = t.txFrame := rfl

/-- The advance of `ACTIVE` changes nothing else (42_message_queue.md R145). -/
theorem State.advance_frame (s : State) : { s.advance with active := s.active } = s := rfl

theorem State.advanceFrom_lt {s : State} (fuel : Nat) (first : Bool) {a : Nat} (h : a < s.n) :
    s.advanceFrom fuel first a < s.n := by
  induction fuel generalizing first a with
  | zero => exact h
  | succ fuel ih =>
    simp only [State.advanceFrom]
    split
    · exact ih false (s.inc_lt a)
    · exact h

/-- A slot that is neither finished nor dequeued is not passed. -/
theorem State.advanceFrom_of_not_done {s : State} (fuel : Nat) (first : Bool) {a : Nat}
    (h : (s.slot a).life.isDone = false) : s.advanceFrom fuel first a = a := by
  cases fuel <;> simp [State.advanceFrom, h]

/-- A claim changes `ACTIVE` and the lifecycle state of one slot (42_message_queue.md R145). -/
theorem State.claim_frame (s : State) : { s.claim with active := s.active, slots := s.slots } = s := rfl

/-- A dequeue changes `FRONT` and the lifecycle state of one slot (42_message_queue.md R147). -/
theorem State.dequeueFront_frame (s : State) : { s.dequeueFront with front := s.front, slots := s.slots } = s := rfl

end Sys2Proof.Machine
end

