-- ==== Sys2Proof/Laws/Check.lean ====
section
/-! SUPPORT. A check that computes, and its soundness for the invariant: for witnesses on concrete states. -/

namespace Sys2Proof.Machine

/-- `p` holds below `n`. -/
def allBelow (n : Nat) (p : Nat → Bool) : Bool := (List.range n).all p

theorem allBelow_spec {n : Nat} {p : Nat → Bool} (h : allBelow n p = true) {j : Nat} (hj : j < n) : p j = true :=
  List.all_eq_true.1 h j (List.mem_range.2 hj)

def Slot.wfCheck (t : Slot) : Bool :=
  decide (t.txLen ≤ t.tx.length) && decide (t.tx.length ≤ Config.txCap) && decide (t.txIdx ≤ t.txLen) &&
  decide (t.rxCnt ≤ t.rx.length) && decide (t.rx.length ≤ Config.rxCap) && decide (t.expLen ≤ Config.rxCap)

theorem Slot.wf_of_check {t : Slot} (h : t.wfCheck = true) : t.Wf := by
  simp only [Slot.wfCheck, Bool.and_eq_true, decide_eq_true_eq] at h
  obtain ⟨⟨⟨⟨⟨h1, h2⟩, h3⟩, h4⟩, h5⟩, h6⟩ := h
  exact ⟨h1, h2, h3, h4, h5, h6⟩

def State.wfCheck (s : State) : Bool :=
  s.params.wf && decide (s.slots.length = s.n) && decide (s.front < s.n) && decide (s.back < s.n) &&
  decide (s.active < s.n) && s.slots.all Slot.wfCheck && Memory.wf s.mem && Memory.inWdata s.mem

theorem State.wf_of_check {s : State} (h : s.wfCheck = true) : s.Wf := by
  simp only [State.wfCheck, Bool.and_eq_true, decide_eq_true_eq, List.all_eq_true] at h
  obtain ⟨⟨⟨⟨⟨⟨⟨h1, h2⟩, h3⟩, h4⟩, h5⟩, h6⟩, h7⟩, h8⟩ := h
  exact ⟨h1, h2, h3, h4, h5, fun t ht => Slot.wf_of_check (h6 t ht), h7, h8⟩

def State.liveCheck (s : State) : Bool :=
  decide (s.activeOffset < s.size) &&
  allBelow s.size fun j =>
    if j < s.activeOffset then s.ringLife j == .finished
    else if j = s.activeOffset then s.ringLife j == .finished || s.ringLife j == .sent || s.ringLife j == .queued
    else s.ringLife j == .queued

theorem State.live_of_check {s : State} (h : s.liveCheck = true) : s.ActiveLive := by
  simp only [State.liveCheck, Bool.and_eq_true, decide_eq_true_eq] at h
  obtain ⟨ha, hj⟩ := h
  refine ⟨ha, fun j hlt => ?_, ?_, fun j hgt hs => ?_⟩
  · have := allBelow_spec hj (Nat.lt_trans hlt ha)
    simpa [hlt] using this
  · have := allBelow_spec hj ha
    simpa [or_assoc] using this
  · have := allBelow_spec hj hs
    simpa [Nat.not_lt.2 (Nat.le_of_lt hgt), Nat.ne_of_gt hgt] using this

def State.ringCheck (s : State) : Bool :=
  (s.liveCheck || (decide (s.active = s.back) && allBelow s.size fun j => s.ringLife j == .finished) ||
    (decide (s.activeOffset = s.n - 1) && s.activeSlot.life == .dequeued &&
      allBelow s.size fun j => s.ringLife j == .queued)) &&
  (allBelow s.n fun j => decide (j < s.size) || s.ringLife j == .unused || s.ringLife j == .dequeued) &&
  allBelow s.n fun j => allBelow s.n fun i =>
    decide (i < s.size) || decide (j < i) || s.ringLife i != .dequeued || s.ringLife j == .dequeued

theorem State.ring_of_check {s : State} (h : s.ringCheck = true) : s.Ring := by
  simp only [State.ringCheck, Bool.and_eq_true, Bool.or_eq_true, decide_eq_true_eq, beq_iff_eq] at h
  obtain ⟨⟨hp, ho⟩, hd⟩ := h
  refine ⟨?_, fun j h1 h2 => ?_, fun i j h1 h2 h3 h4 => ?_⟩
  · rcases hp with (hp | ⟨ha, hf⟩) | ⟨⟨ha, hl⟩, hq⟩
    · exact .inl (State.live_of_check hp)
    · exact .inr (.inl ⟨ha, fun j hj => by simpa using allBelow_spec hf hj⟩)
    · exact .inr (.inr ⟨ha, hl, fun j hj => by simpa using allBelow_spec hq hj⟩)
  · have := allBelow_spec ho h2
    simpa [Nat.not_lt.2 h1] using this
  · have := allBelow_spec (allBelow_spec hd h3) (Nat.lt_of_le_of_lt h2 h3)
    simpa [Nat.not_lt.2 h1, Nat.not_lt.2 h2, h4] using this

def State.sequencedCheck (s : State) : Bool :=
  timerFits s.fsm s.tmr && (!s.inFlight || s.activeSlot.life == .sent) && (s.activeSlot.life != .sent || s.inFlight) &&
  (s.tmr != .interchar || decide (0 < s.activeSlot.rxCnt)) && (s.tmr != .turnaround || s.activeSlot.txByte 0 == 0) &&
  ((s.tmr != .response && s.tmr != .turnaround) || (s.activeSlot.rxCnt == 0 && s.activeSlot.validMask == 0))

theorem State.sequenced_of_check {s : State} (h : s.sequencedCheck = true) : s.Sequenced := by
  simp only [State.sequencedCheck, Bool.and_eq_true, Bool.or_eq_true, decide_eq_true_eq, beq_iff_eq, bne_iff_ne,
    Bool.not_eq_true'] at h
  obtain ⟨⟨⟨⟨⟨h1, h2⟩, h3⟩, h4⟩, h5⟩, h6⟩ := h
  refine ⟨h1, fun h => h2.resolve_left (by simp [h]), fun h => h3.resolve_left (by simp [h]),
    fun h => h4.resolve_left (by simp [h]), fun h => h5.resolve_left (by simp [h]), fun h => h6.resolve_left ?_⟩
  rintro ⟨ha, hb⟩
  exact h.elim ha hb

def Slot.recordCheck (t : Slot) : Bool :=
  (t.life == .unused || (decide (4 ≤ t.txLen) && crcCheck t.txFrame)) &&
  (t.life != .queued || (t.txIdx == 0 && t.rxCnt == 0 && t.validMask == 0)) &&
  (!t.life.isDone || decide (0 < t.rxCnt) || t.validMask != 0 || t.txByte 0 == 0)

theorem Slot.record_of_check {t : Slot} (h : t.recordCheck = true) : t.Record := by
  simp only [Slot.recordCheck, Bool.and_eq_true, Bool.or_eq_true, decide_eq_true_eq, beq_iff_eq, bne_iff_ne,
    Bool.not_eq_true'] at h
  obtain ⟨⟨h1, h2⟩, h3⟩ := h
  refine ⟨fun h => (h1.resolve_left h).1, fun h => (h1.resolve_left h).2, fun h => ?_, fun h => ?_⟩
  · have := h2.resolve_left (by simp [h])
    exact ⟨this.1.1, this.1.2, this.2⟩
  · rcases h3 with ((h3 | h3) | h3) | h3
    · simp [h] at h3
    · exact .inl h3
    · exact .inr (.inl h3)
    · exact .inr (.inr h3)

/-- The invariant, as a computation. -/
def State.invCheck (s : State) : Bool :=
  s.wfCheck && s.ringCheck && s.sequencedCheck && s.slots.all Slot.recordCheck

theorem State.inv_of_check {s : State} (h : s.invCheck = true) : s.Inv := by
  simp only [State.invCheck, Bool.and_eq_true, List.all_eq_true] at h
  obtain ⟨⟨⟨h1, h2⟩, h3⟩, h4⟩ := h
  exact ⟨State.wf_of_check h1, State.ring_of_check h2, State.sequenced_of_check h3,
    fun t ht => Slot.record_of_check (h4 t ht)⟩

end Sys2Proof.Machine
end

