-- ==== Sys2Proof/Laws/Crc.lean ====
section
/-! SUPPORT. The CRC update is linear in the register; the check on short strings. -/

namespace Sys2Proof.Machine

/-- One shift step commutes with exclusive-or. -/
theorem crcShift_xor (a b : Half) : crcShift (a ^^^ b) = crcShift a ^^^ crcShift b := by
  simp only [crcShift, BitVec.getLsbD_xor, BitVec.ushiftRight_xor_distrib]
  generalize a >>> 1 = x
  generalize b >>> 1 = y
  cases a.getLsbD 0 <;> cases b.getLsbD 0 <;> simp only [Bool.not_true, Bool.not_false,
    Bool.false_eq_true, Bool.xor_true, Bool.xor_false, if_true, if_false]
  · ac_rfl
  · ac_rfl
  · rw [show x ^^^ 0xA001 ^^^ (y ^^^ 0xA001) = (x ^^^ y) ^^^ ((0xA001 : Half) ^^^ 0xA001) by ac_rfl]
    simp

theorem crcShifts_xor (n : Nat) (a b : Half) : crcShifts n (a ^^^ b) = crcShifts n a ^^^ crcShifts n b := by
  induction n generalizing a b with
  | zero => rfl
  | succ n ih => simp [crcShifts, crcShift_xor, ih]

theorem crcGenerate_nil : crcGenerate [] = 0xFFFF := rfl

theorem crcGenerate_append (s t : List Byte) : crcGenerate (s ++ t) = t.foldl crcUpdate (crcGenerate s) := by
  simp [crcGenerate]

theorem crcCheck_of_short {s : List Byte} (h : s.length < 2) : crcCheck s = false := by
  simp [crcCheck, h]

end Sys2Proof.Machine
end

