-- ==== Sys2Proof/Laws/Memory.lean ====
section
/-! SUPPORT. Read after write, and the canonical form, for the memory of `WDATA` cells. -/

namespace Sys2Proof.Machine

theorem Memory.get?_set_same (m : Memory) (k : Nat) (v : Byte) :
    Memory.get? (Memory.set m k v) k = some v := by
  induction m with
  | nil => simp [Memory.set, Memory.get?]
  | cons c m ih =>
    obtain ⟨a, b⟩ := c
    simp only [Memory.set]
    split
    · simp [Memory.get?]
    · split
      · simp [Memory.get?, *]
      · simp only [Memory.get?, ih]
        split
        · omega
        · rfl

theorem Memory.get?_set_other (m : Memory) {k j : Nat} (h : j ≠ k) (v : Byte) :
    Memory.get? (Memory.set m k v) j = Memory.get? m j := by
  induction m with
  | nil => simp [Memory.set, Memory.get?, Ne.symm h]
  | cons c m ih =>
    obtain ⟨a, b⟩ := c
    simp only [Memory.set]
    split
    · simp [Memory.get?, Ne.symm h]
    · split
      · subst_vars; simp [Memory.get?, Ne.symm h]
      · simp only [Memory.get?, ih]

/-- The canonical form as a statement about sorted lists. -/
theorem Memory.wf_iff_pairwise (m : Memory) : Memory.wf m = true ↔ m.Pairwise (fun c d => c.1 < d.1) := by
  induction m with
  | nil => simp [Memory.wf]
  | cons c m ih =>
    cases m with
    | nil => simp [Memory.wf]
    | cons d m =>
      simp only [Memory.wf, Bool.and_eq_true, decide_eq_true_eq, ih]
      constructor
      · rintro ⟨h, hp⟩
        refine List.pairwise_cons.2 ⟨?_, hp⟩
        intro e he
        rcases List.mem_cons.1 he with rfl | he
        · exact h
        · exact Nat.lt_trans h ((List.pairwise_cons.1 hp).1 e he)
      · intro hp
        exact ⟨(List.pairwise_cons.1 hp).1 d (by simp), (List.pairwise_cons.1 hp).2⟩

/-- Every cell after a write is the written one or one of the old ones. -/
theorem Memory.mem_set {m : Memory} {k : Nat} {v : Byte} {c : Host.Cell} (h : c ∈ Memory.set m k v) :
    c = (k, v) ∨ c ∈ m := by
  induction m with
  | nil => simpa [Memory.set] using h
  | cons d m ih =>
    obtain ⟨a, b⟩ := d
    simp only [Memory.set] at h
    split at h
    · simpa using h
    · split at h
      · rcases List.mem_cons.1 h with rfl | h
        · subst_vars; exact .inl rfl
        · exact .inr (List.mem_cons_of_mem _ h)
      · rcases List.mem_cons.1 h with rfl | h
        · exact .inr (by simp)
        · exact (ih h).imp id (List.mem_cons_of_mem _)

/-- A write keeps the canonical form. -/
theorem Memory.wf_set {m : Memory} (h : Memory.wf m = true) (k : Nat) (v : Byte) :
    Memory.wf (Memory.set m k v) = true := by
  rw [Memory.wf_iff_pairwise] at *
  induction m with
  | nil => simp [Memory.set]
  | cons c m ih =>
    obtain ⟨a, b⟩ := c
    obtain ⟨ha, hm⟩ := List.pairwise_cons.1 h
    simp only [Memory.set]
    split
    · rename_i hk
      refine List.pairwise_cons.2 ⟨fun e he => ?_, h⟩
      rcases List.mem_cons.1 he with rfl | he
      · exact hk
      · exact Nat.lt_trans hk (ha e he)
    · split
      · exact List.pairwise_cons.2 ⟨ha, hm⟩
      · refine List.pairwise_cons.2 ⟨fun e he => ?_, ih hm⟩
        rcases Memory.mem_set he with rfl | he
        · show a < k; omega
        · exact ha e he

/-- A write to a byte of `WDATA` keeps all cells in `WDATA`. -/
theorem Memory.inWdata_set {m : Memory} (h : Memory.inWdata m = true) {k : Nat} (hk : k < Config.wdataCap)
    (v : Byte) : Memory.inWdata (Memory.set m (wdataBase + k) v) = true := by
  simp only [Memory.inWdata, List.all_eq_true, Bool.and_eq_true, decide_eq_true_eq] at *
  intro c hc
  rcases Memory.mem_set hc with rfl | hc
  · exact ⟨Nat.le_add_right _ _, Nat.add_lt_add_left hk _⟩
  · exact h c hc

/-- The memory after reset lists nothing, so it has the canonical form. -/
theorem reset_mem_wf (p : Params) (time : Word) : Memory.wf (State.resetWith p time).mem = true := rfl

@[simp] theorem State.wdataByte_setWdata_same (s : State) (k : Nat) (v : Byte) :
    (s.setWdata k v).wdataByte k = v := by
  simp [State.wdataByte, Memory.get?_set_same]

@[simp] theorem State.wdataByte_setWdata_other (s : State) {k j : Nat} (h : j ≠ k) (v : Byte) :
    (s.setWdata k v).wdataByte j = s.wdataByte j := by
  have h' : wdataBase + j ≠ wdataBase + k := by omega
  simp [State.wdataByte, Memory.get?_set_other _ h']

/-- A prefix of `WDATA` has the length asked for. -/
@[simp] theorem State.length_wdataPrefix (s : State) (n : Nat) : (s.wdataPrefix n).length = n := by
  simp [State.wdataPrefix]

end Sys2Proof.Machine
end

