-- ==== Sys2Proof/Laws/PerInstr.lean ====
section
/-! SUPPORT. Per-instruction law: the encoding of every instruction matches its row of spec/opcode_table.json. -/

namespace Sys2Proof.Laws.MatchesTable

/-- The opcode of a command (30_encoding.md R82), the `match` value of its row of the table. -/
def opcode : Instr → Option Byte
  | .readCoils _ => some 0x01
  | .readDiscreteInputs _ => some 0x02
  | .readHoldingRegisters _ => some 0x03
  | .readInputRegisters _ => some 0x04
  | .writeSingleCoil _ => some 0x05
  | .writeSingleRegister _ => some 0x06
  | .diagnostics _ => some 0x08
  | .getCommEventCounter _ => some 0x0B
  | .writeMultipleCoils _ => some 0x0F
  | .writeMultipleRegisters _ => some 0x10
  | .readWriteMultipleRegisters _ => some 0x17
  | .enqRaw _ => some 0x80
  | .dequeue => some 0x81
  | .queueReset => some 0x82
  | .clearCounters => some 0x83
  | .crcGen => some 0x84
  | .crcChk => some 0x85
  | .tick | .rxByte _ _ | .txReady | .runIn | .runOut | .hrd _ _ | .hwr _ _ _ | .rst => none

/-- The strobes of an operation (30_encoding.md R87), the `match` value of an EVT row. -/
def strobes : Instr → BitVec 5
  | .readCoils _ => 0
  | .readDiscreteInputs _ => 0
  | .readHoldingRegisters _ => 0
  | .readInputRegisters _ => 0
  | .writeSingleCoil _ => 0
  | .writeSingleRegister _ => 0
  | .diagnostics _ => 0
  | .getCommEventCounter _ => 0
  | .writeMultipleCoils _ => 0
  | .writeMultipleRegisters _ => 0
  | .readWriteMultipleRegisters _ => 0
  | .enqRaw _ => 0
  | .dequeue => 0
  | .queueReset => 0
  | .clearCounters => 0
  | .crcGen => 0
  | .crcChk => 0
  | .tick => 0x01
  | .rxByte _ _ => 0x02
  | .txReady => 0x04
  | .runIn => 0x08
  | .runOut => 0x10
  | .hrd _ _ | .hwr _ _ _ | .rst => 0

/-- The row of the table (30_encoding.md R81, R87, R88): a command is a word write to `CMD` whose word has the
opcode in the bits the mask 0x000000FF selects; an event sets its own strobe and no other; an access drives `HSEL`
and `HWRITE`; only the reset drives `RST`. -/
def Statement (i : Instr) : Prop :=
  (∀ op, opcode i = some op →
    wordOpcode (encode i).hwdata = op ∧ (encode i).haddr = 0 ∧ (encode i).hsize = .word ∧
    (encode i).hsel = true ∧ (encode i).hwrite = true) ∧
  (encode i).evt = strobes i ∧
  ((encode i).rst = true ↔ i = .rst) ∧
  (∀ a z, i = .hrd a z → (encode i).hsel = true ∧ (encode i).hwrite = false ∧ (encode i).haddr = a ∧ (encode i).hsize = z) ∧
  (∀ a z v, i = .hwr a z v → (encode i).hsel = true ∧ (encode i).hwrite = true ∧ (encode i).haddr = a ∧
    (encode i).hsize = z ∧ (encode i).hwdata = v)

/-- The opcode stands in the low byte of a command word. -/
theorem wordOpcode_commandWord (dev op : Byte) : wordOpcode (commandWord dev op) = op := by
  apply BitVec.eq_of_getLsbD_eq
  intro i hi
  rw [wordOpcode, commandWord, BitVec.getLsbD_extractLsb', BitVec.getLsbD_append]
  simp [hi]

/-- The statement for a command. -/
theorem of_command {i : Instr} {dev op : Byte} (he : encode i = encodeCommand dev op) (ho : opcode i = some op)
    (hs : strobes i = 0) (hr : i ≠ .rst) (hrd : ∀ a z, i ≠ .hrd a z) (hwr : ∀ a z v, i ≠ .hwr a z v) : Statement i := by
  refine ⟨fun op' h => ?_, ?_, ?_, fun a z h => absurd h (hrd a z), fun a z v h => absurd h (hwr a z v)⟩
  · obtain rfl : op = op' := by simpa [ho] using h
    rw [he]
    exact ⟨wordOpcode_commandWord dev op, rfl, rfl, rfl, rfl⟩
  · rw [he, hs]; rfl
  · rw [he]; exact ⟨fun h => by simp [encodeCommand, encodeAccess] at h, fun h => absurd h hr⟩

theorem readCoils (dev : Byte) : Statement (.readCoils dev) :=
  of_command (dev := dev) (op := 0x01) rfl rfl rfl (by simp) (by simp) (by simp)

theorem readDiscreteInputs (dev : Byte) : Statement (.readDiscreteInputs dev) :=
  of_command (dev := dev) (op := 0x02) rfl rfl rfl (by simp) (by simp) (by simp)

theorem readHoldingRegisters (dev : Byte) : Statement (.readHoldingRegisters dev) :=
  of_command (dev := dev) (op := 0x03) rfl rfl rfl (by simp) (by simp) (by simp)

theorem readInputRegisters (dev : Byte) : Statement (.readInputRegisters dev) :=
  of_command (dev := dev) (op := 0x04) rfl rfl rfl (by simp) (by simp) (by simp)

theorem writeSingleCoil (dev : Byte) : Statement (.writeSingleCoil dev) :=
  of_command (dev := dev) (op := 0x05) rfl rfl rfl (by simp) (by simp) (by simp)

theorem writeSingleRegister (dev : Byte) : Statement (.writeSingleRegister dev) :=
  of_command (dev := dev) (op := 0x06) rfl rfl rfl (by simp) (by simp) (by simp)

theorem diagnostics (dev : Byte) : Statement (.diagnostics dev) :=
  of_command (dev := dev) (op := 0x08) rfl rfl rfl (by simp) (by simp) (by simp)

theorem getCommEventCounter (dev : Byte) : Statement (.getCommEventCounter dev) :=
  of_command (dev := dev) (op := 0x0B) rfl rfl rfl (by simp) (by simp) (by simp)

theorem writeMultipleCoils (dev : Byte) : Statement (.writeMultipleCoils dev) :=
  of_command (dev := dev) (op := 0x0F) rfl rfl rfl (by simp) (by simp) (by simp)

theorem writeMultipleRegisters (dev : Byte) : Statement (.writeMultipleRegisters dev) :=
  of_command (dev := dev) (op := 0x10) rfl rfl rfl (by simp) (by simp) (by simp)

theorem readWriteMultipleRegisters (dev : Byte) : Statement (.readWriteMultipleRegisters dev) :=
  of_command (dev := dev) (op := 0x17) rfl rfl rfl (by simp) (by simp) (by simp)

theorem enqRaw (dev : Byte) : Statement (.enqRaw dev) :=
  of_command (dev := dev) (op := 0x80) rfl rfl rfl (by simp) (by simp) (by simp)

theorem dequeue : Statement .dequeue :=
  of_command (dev := 0) (op := 0x81) rfl rfl rfl (by simp) (by simp) (by simp)

theorem queueReset : Statement .queueReset :=
  of_command (dev := 0) (op := 0x82) rfl rfl rfl (by simp) (by simp) (by simp)

theorem clearCounters : Statement .clearCounters :=
  of_command (dev := 0) (op := 0x83) rfl rfl rfl (by simp) (by simp) (by simp)

theorem crcGen : Statement .crcGen :=
  of_command (dev := 0) (op := 0x84) rfl rfl rfl (by simp) (by simp) (by simp)

theorem crcChk : Statement .crcChk :=
  of_command (dev := 0) (op := 0x85) rfl rfl rfl (by simp) (by simp) (by simp)

theorem tick : Statement .tick := by
  simp [Statement, opcode, strobes, encode, encodeEvent]

theorem rxByte (b : Byte) (e : BitVec 4) : Statement (.rxByte b e) := by
  simp [Statement, opcode, strobes, encode, encodeEvent]

theorem txReady : Statement .txReady := by
  simp [Statement, opcode, strobes, encode, encodeEvent]

theorem runIn : Statement .runIn := by
  simp [Statement, opcode, strobes, encode, encodeEvent]

theorem runOut : Statement .runOut := by
  simp [Statement, opcode, strobes, encode, encodeEvent]

theorem rst : Statement .rst := by
  simp [Statement, opcode, strobes, encode]

theorem hrd (addr : Word) (size : HSize) : Statement (.hrd addr size) := by
  simp [Statement, opcode, strobes, encode, encodeAccess]

theorem hwr (addr : Word) (size : HSize) (data : Word) : Statement (.hwr addr size data) := by
  simp [Statement, opcode, strobes, encode, encodeAccess]

end Sys2Proof.Laws.MatchesTable
end

