-- ==== Sys2Proof/Tests/Slice0.lean ====
section
/-! SUPPORT. Tests with results from the spec's vectors (95_test_vectors.md and the worked examples of the rules), and
a witness for the hypotheses of every statement. -/

namespace Sys2Proof.Tests

open Sys2Proof.Machine

-- One theorem at a time: the kernel's evaluations below would else each hold a thread.
set_option Elab.async false

/-- The state a list of operations leads to. -/
def after (is : List Instr) (s : State) : State :=
  match execAll is s with
  | .next t => t
  | .fault _ | .refused _ => s

/-- An engine with two slots right after reset, at `TIME` = 1000. -/
def start : State := State.resetWith { Params.examples with idxW := 1 } 1000

/-- Operands in `ARG0` to `ARG3`. -/
def operands (a0 a1 a2 a3 : Half) (s : State) : State := { s with args := #v[a0, a1, a2, a3, 0] }

/-- Bytes in `WDATA` from index `k` on. -/
def cells : Nat → List Byte → Memory
  | _, [] => []
  | k, b :: bs => (wdataBase + k, b) :: cells (k + 1) bs

/-- Bytes in `WDATA`. -/
def staged (bs : List Byte) (s : State) : State := { s with mem := cells 0 bs }

/-- `read_holding_registers 1, 3, 2` is queued in slot 0 (the request of 40_crc16.md R116). -/
def queued : State := after [.readHoldingRegisters 1] (operands 3 2 0 0 start)

/-- Its emission has started. -/
def sending : State := after [.runOut] queued

/-- All eight bytes have been handed over. -/
def allSent : State := sending.setActive { sending.activeSlot with txIdx := 8 }

/-- The line has been turned round. -/
def waiting : State := after [.txReady] allSent

/-- Three bytes of the nine-byte response have arrived. -/
def partly : State := after [.rxByte 0x01 0, .rxByte 0x03 0, .rxByte 0x04 0] waiting

/-- The active transaction with a response of unknown length. -/
def unknownLength (s : State) : State := s.setActive { s.activeSlot with lenKnown := false, expLen := 0 }

/-- `d` counts of `TIME` later. -/
def later (d : Word) (s : State) : State := { s with time := s.time + d }

/-- The response timeout has ended the transaction. -/
def timedOut : State := after [.runIn] (later 50000 waiting)

/-- The host has taken the transaction. -/
def taken : State := after [.dequeue] timedOut

/-- One more request has timed out in slot 1 and been taken, so that `BACK` is at the slot dequeued first. -/
def reused : State :=
  after [.runIn, .dequeue] (later 50000 (after [.readHoldingRegisters 1, .runOut] (later 2000 taken)))

/-- A broadcast `write_single_register 0, 1, 3` is waiting for its turnaround delay. -/
def broadcasting : State := after [.writeSingleRegister 0, .runOut] (operands 1 3 0 0 start)

/-- The first and the rest of a slot's request and response, as the host finds them. -/
def result (s : State) (i : Nat) : List Byte × Nat × Nat × Bool × Life × Byte :=
  ((s.slot i).txFrame, (s.slot i).txLen, (s.slot i).expLen, (s.slot i).lenKnown, (s.slot i).life, (s.slot i).validMask)

/-! ### Well-formedness -/

/-- The one check: a word write to `CMD` with a legal opcode is the command, not an `HWR`. -/
theorem test_wf_refuses_command_write : (Instr.hwr 0 .word 0x00000183).wf = false := by decide

theorem test_wf_accepts_illegal_opcode : (Instr.hwr 0 .word 0x00000007).wf = true := by decide

theorem test_wf_accepts_other_writes :
    (Instr.hwr 8 .word 0x00000083).wf = true ∧ (Instr.hwr 0 .byte 0x00000083).wf = true := by decide

/-! ### Decoding: every constructor from a word written out bit by bit (30_encoding.md R81, R82, R87, R88) -/

theorem test_decode_reads :
    decodeTableWord 32 0b00000000000000000001000100000001 = some (.readCoils 0x11) ∧
    decodeTableWord 32 0b00000000000000000001000100000010 = some (.readDiscreteInputs 0x11) ∧
    decodeTableWord 32 0b00000000000000000000000100000011 = some (.readHoldingRegisters 0x01) ∧
    decodeTableWord 32 0b00000000000000000001000100000100 = some (.readInputRegisters 0x11) := by decide

theorem test_decode_writes :
    decodeTableWord 32 0b00000000000000000001000100000101 = some (.writeSingleCoil 0x11) ∧
    decodeTableWord 32 0b00000000000000000001000100000110 = some (.writeSingleRegister 0x11) ∧
    decodeTableWord 32 0b00000000000000000001000100001111 = some (.writeMultipleCoils 0x11) ∧
    decodeTableWord 32 0b00000000000000000001000100010000 = some (.writeMultipleRegisters 0x11) ∧
    decodeTableWord 32 0b00000000000000000001000100010111 = some (.readWriteMultipleRegisters 0x11) := by decide

theorem test_decode_others :
    decodeTableWord 32 0b00000000000000000001000100001000 = some (.diagnostics 0x11) ∧
    decodeTableWord 32 0b00000000000000000001000100001011 = some (.getCommEventCounter 0x11) ∧
    decodeTableWord 32 0b00000000000000000010101010000000 = some (.enqRaw 0x2A) := by decide

theorem test_decode_control :
    decodeTableWord 32 0b00000000000000000000000010000001 = some .dequeue ∧
    decodeTableWord 32 0b00000000000000000000000010000010 = some .queueReset ∧
    decodeTableWord 32 0b11111111111111110000000110000011 = some .clearCounters ∧
    decodeTableWord 32 0b00000000000000000000000010000100 = some .crcGen ∧
    decodeTableWord 32 0b00000000000000000000000010000101 = some .crcChk := by decide

theorem test_decode_events :
    decodeTableWord 8 0b00000001 = some .tick ∧ decodeTableWord 8 0b00000010 = some (.rxByte 0 0) ∧
    decodeTableWord 8 0b00000100 = some .txReady ∧ decodeTableWord 8 0b00001000 = some .runIn ∧
    decodeTableWord 8 0b00010000 = some .runOut := by decide

theorem test_decode_accesses :
    decode { hsel := true, haddr := 0x30, hsize := .word } = .ok (.hrd 0x30 .word) ∧
    decode { hsel := true, hwrite := true, haddr := 0x100, hwdata := 0x5A } = .ok (.hwr 0x100 .byte 0x5A) ∧
    decode { rst := true, evt := 0b11111, hsel := true } = .ok .rst := by decide

theorem test_decode_refuses :
    decodeCommand 0x00000000 = .error (.illegalOpcode 0x00) ∧ decodeCommand 0x00000086 = .error (.illegalOpcode 0x86) ∧
    decode {} = .error .noOperation := by decide

/-- Strobes of one cycle are taken in the order of 43_client_fsm_timer.md R160. -/
theorem test_consume_order :
    decode { evt := 0b00110, rxData := 7 } = .ok (.rxByte 7 0) ∧
    decode (consume { evt := 0b00110, rxData := 7 }) = .ok .txReady ∧
    consume (consume { evt := 0b00110, rxData := 7 }) = {} := by decide

/-- Command lines (30_encoding.md R96 and the raw request of program P6). -/
theorem test_command_lines :
    commandLine .readHoldingRegisters 1 [0x0003, 2] [] =
      [hostWrite 0x0008 .word 0x0003, hostWrite 0x000C .word 0x0002, hostWrite 0x0000 .word 0x00000103] ∧
    enqueueTransactionLine 0x2A 0x41 2 0 0 [0xFF, 0x00] =
      [hostWrite 0x0100 .byte 0xFF, hostWrite 0x0101 .byte 0x00, hostWrite 0x0008 .word 0x41, hostWrite 0x000C .word 2,
       hostWrite 0x0010 .word 0, hostWrite 0x0014 .word 0, hostWrite 0x0000 .word 0x00002A80] := by decide

/-- `CRC_CHK 2 ; FF FF` gives `ARG1` alone (30_encoding.md R82, R96). -/
theorem test_crc_line :
    crcChkLine 2 [0xFF, 0xFF] =
      [hostWrite 0x0100 .byte 0xFF, hostWrite 0x0101 .byte 0xFF, hostWrite 0x000C .word 2,
       hostWrite 0x0000 .word 0x00000085] := by decide

/-- Run from the reset state, the line and the read of `RESULT` behind it give the vector's 0x00010001
(95_test_vectors.md part 2.1), and `ARG0` is left alone. -/
theorem test_crc_line_runs :
    (after ((crcChkLine 2 [0xFF, 0xFF] ++ [resultRead]).filterMap fun p => (decode p).toOption) start).hrdata =
      some 0x00010001 ∧
    (after ((crcChkLine 2 [0xFF, 0xFF]).filterMap fun p => (decode p).toOption) (operands 7 0 0 0 start)).arg 0 = 7 := by
  decide +kernel

/-! ### The CRC unit (95_test_vectors.md part 2.1) -/

theorem test_crc_values :
    crcGenerate [] = 0xFFFF ∧ crcGenerate [0x00] = 0x40BF ∧ crcGenerate [0xFF, 0xFF] = 0x0000 ∧
    crcGenerate [0x31, 0x32, 0x33, 0x34, 0x35, 0x36, 0x37, 0x38, 0x39] = 0x4B37 ∧
    crcGenerate [0x11, 0x03, 0x00, 0x6B, 0x00, 0x03] = 0x8776 := by decide +kernel

theorem test_crc_check_values :
    crcCheck [0x01, 0x03, 0x00, 0x03, 0x00, 0x02, 0x34, 0x0B] = true ∧
    crcCheck [0x01, 0x03, 0x00, 0x03, 0x00, 0x02, 0x34, 0x0C] = false ∧
    crcCheck [0xFF, 0xFF] = true ∧ crcCheck [0x00] = false := by decide +kernel

theorem test_crc_table_entries :
    crcTable.getD 0x01 0 = 0xC0C1 ∧ crcTable.getD 0x02 0 = 0xC181 ∧ crcTable.getD 0x80 0 = 0xA001 ∧
    crcTable.getD 0xFF 0 = 0x4040 := by decide +kernel

theorem test_crc_gen :
    (after [.crcGen] (operands 0 6 0 0 (staged [0x01, 0x03, 0x00, 0x03, 0x00, 0x02] start))).result = 0x0B340001 ∧
    (after [.crcGen] (operands 0 0 0 0 start)).result = 0xFFFF0001 ∧
    (after [.crcGen] (operands 0 253 0 0 start)).result = 0x00000100 := by decide +kernel

theorem test_crc_chk :
    (after [.crcChk] (operands 0 8 0 0 (staged [0x01, 0x03, 0x00, 0x03, 0x00, 0x02, 0x34, 0x0B] start))).result
      = 0x00010001 ∧
    (after [.crcChk] (operands 0 2 0 0 (staged [0xFF, 0xFF] start))).result = 0x00010001 ∧
    (after [.crcChk] (operands 0 0 0 0 start)).result = 0x00000001 := by decide +kernel

/-! ### The encoders (95_test_vectors.md part 2.5) -/

theorem test_read_coils :
    result (after [.readCoils 0x11] (operands 0x0013 0x0025 0 0 start)) 0 =
      ([0x11, 0x01, 0x00, 0x13, 0x00, 0x25, 0x0E, 0x84], 8, 10, true, .queued, 0) := by decide +kernel

theorem test_read_coils_bounds :
    (after [.readCoils 1] (operands 0 0 0 0 start)).result = 0x00000100 ∧
    ((after [.readCoils 1] (operands 0 2000 0 0 start)).slot 0).expLen = 255 ∧
    (after [.readCoils 1] (operands 0 2001 0 0 start)).result = 0x00000100 := by decide +kernel

theorem test_read_discrete_inputs :
    result (after [.readDiscreteInputs 0x11] (operands 0x00C4 0x0016 0 0 start)) 0 =
      ([0x11, 0x02, 0x00, 0xC4, 0x00, 0x16, 0xBA, 0xA9], 8, 8, true, .queued, 0) := by decide +kernel

theorem test_read_holding_registers :
    result queued 0 = ([0x01, 0x03, 0x00, 0x03, 0x00, 0x02, 0x34, 0x0B], 8, 9, true, .queued, 0) ∧
    queued.result = 0x00000001 ∧ queued.back = 1 := by decide +kernel

theorem test_read_holding_registers_bounds :
    ((after [.readHoldingRegisters 1] (operands 0 125 0 0 start)).slot 0).expLen = 255 ∧
    (after [.readHoldingRegisters 1] (operands 0 126 0 0 start)).result = 0x00000100 ∧
    (after [.readHoldingRegisters 1] queued).result = 0x00000200 := by decide +kernel

theorem test_read_input_registers :
    result (after [.readInputRegisters 0x11] (operands 8 1 0 0 start)) 0 =
      ([0x11, 0x04, 0x00, 0x08, 0x00, 0x01, 0xB2, 0x98], 8, 7, true, .queued, 0) := by decide +kernel

theorem test_write_single_coil :
    ((after [.writeSingleCoil 0x11] (operands 0x00AC 1 0 0 start)).slot 0).txFrame =
      [0x11, 0x05, 0x00, 0xAC, 0xFF, 0x00, 0x4E, 0x8B] ∧
    ((after [.writeSingleCoil 0x11] (operands 0x00AC 0 0 0 start)).slot 0).txFrame =
      [0x11, 0x05, 0x00, 0xAC, 0x00, 0x00, 0x0F, 0x7B] ∧
    ((after [.writeSingleCoil 1] (operands 5 0x1234 0 0 start)).slot 0).txFrame =
      [0x01, 0x05, 0x00, 0x05, 0xFF, 0x00, 0x9C, 0x3B] := by decide +kernel

theorem test_write_single_register :
    result (after [.writeSingleRegister 0x11] (operands 1 3 0 0 start)) 0 =
      ([0x11, 0x06, 0x00, 0x01, 0x00, 0x03, 0x9A, 0x9B], 8, 8, true, .queued, 0) := by decide +kernel

theorem test_diagnostics :
    result (after [.diagnostics 0x11] (operands 0 0xA537 0 0 start)) 0 =
      ([0x11, 0x08, 0x00, 0x00, 0xA5, 0x37, 0xD8, 0x1D], 8, 8, true, .queued, 0) := by decide +kernel

theorem test_get_comm_event_counter :
    result (after [.getCommEventCounter 0x11] start) 0 = ([0x11, 0x0B, 0x4C, 0x27], 4, 8, true, .queued, 0) ∧
    ((after [.getCommEventCounter 0] start).slot 0).txFrame = [0x00, 0x0B, 0x40, 0x77] := by decide +kernel

theorem test_write_multiple_coils :
    result (after [.writeMultipleCoils 0x11] (operands 0x0013 10 0 0 (staged [0xCD, 0x01] start))) 0 =
      ([0x11, 0x0F, 0x00, 0x13, 0x00, 0x0A, 0x02, 0xCD, 0x01, 0xBF, 0x0B], 11, 8, true, .queued, 0) ∧
    (after [.writeMultipleCoils 1] (operands 0 1969 0 0 start)).result = 0x00000100 := by decide +kernel

theorem test_write_multiple_registers :
    result (after [.writeMultipleRegisters 0x11] (operands 1 2 0 0 (staged [0x00, 0x0A, 0x01, 0x02] start))) 0 =
      ([0x11, 0x10, 0x00, 0x01, 0x00, 0x02, 0x04, 0x00, 0x0A, 0x01, 0x02, 0xC6, 0xF0], 13, 8, true, .queued, 0) ∧
    (after [.writeMultipleRegisters 1] (operands 0 124 0 0 start)).result = 0x00000100 := by decide +kernel

theorem test_read_write_multiple_registers :
    result (after [.readWriteMultipleRegisters 0x11]
      (operands 3 6 0x000E 3 (staged [0x00, 0xFF, 0x00, 0xFF, 0x00, 0xFF] start))) 0 =
      ([0x11, 0x17, 0x00, 0x03, 0x00, 0x06, 0x00, 0x0E, 0x00, 0x03, 0x06, 0x00, 0xFF, 0x00, 0xFF, 0x00, 0xFF,
        0x4B, 0x54], 19, 17, true, .queued, 0) ∧
    (after [.readWriteMultipleRegisters 1] (operands 0 1 0 122 start)).result = 0x00000100 := by decide +kernel

theorem test_enq_raw :
    result (after [.enqRaw 0x2A] (operands 0x41 2 0 0 (staged [0xFF, 0x00] start))) 0 =
      ([0x2A, 0x41, 0xFF, 0x00, 0x19, 0xD8], 6, 0, false, .queued, 0) ∧
    ((after [.enqRaw 1] (operands 0x2B 0 256 1 start)).slot 0).expLen = 256 := by decide +kernel

theorem test_enq_raw_bounds :
    (after [.enqRaw 1] (operands 0x2B 253 0 0 start)).result = 0x00000100 ∧
    (after [.enqRaw 1] (operands 0x2B 0 257 1 start)).result = 0x00000100 ∧
    ((after [.enqRaw 1] (operands 0x2B 0 257 0 start)).slot 0).expLen = 0 := by decide +kernel

/-! ### Control commands (46_control_ops.md) -/

theorem test_dequeue :
    taken.result = 0x00000001 ∧ taken.front = 1 ∧ (taken.slot 0).life = .dequeued ∧ (taken.slot 0).validMask = 0x10 ∧
    (after [.dequeue] taken).result = 0x00000400 := by decide +kernel

/-- R232, its worked example at another `TIME`. -/
theorem test_queue_reset :
    (after [.queueReset] sending).fsm = .idle ∧ (after [.queueReset] sending).tmr = .interframe ∧
    (after [.queueReset] sending).tmrStart = 1000 ∧ (after [.queueReset] sending).txEn = false ∧
    ((after [.queueReset] sending).slot 0).life = .unused ∧ (after [.queueReset] sending).back = 0 := by decide +kernel

theorem test_clear_counters :
    (after [.clearCounters] (start.bump 0)).ctr = Vector.replicate 18 0 ∧
    (after [.clearCounters] (start.bump 0)).result = 0x00000001 := by decide +kernel

theorem test_reset_event :
    (after [.rst] partly).fsm = .initial ∧ ((after [.rst] partly).slot 0).rxCnt = 0 ∧ (after [.rst] partly).back = 0 ∧
    (after [.rst] partly).durResponse = 50000 := by decide +kernel

/-! ### Bus accesses (95_test_vectors.md part 2.2) -/

theorem test_host_read_durations :
    (after [.hrd 0x30 .word] start).hrdata = some 0x0000C350 ∧ (after [.hrd 0x34 .word] start).hrdata = some 0x00001F40 ∧
    (after [.hrd 0x38 .word] start).hrdata = some 0x000001F4 ∧ (after [.hrd 0x3C .word] start).hrdata = some 0x000007D0 := by
  decide +kernel

theorem test_host_read_refused :
    (after [.hrd 0x100 .word] start).herr = true ∧ (after [.hrd 0x2C .word] start).herr = true ∧
    (after [.hrd 0x1FC .byte] start).herr = true ∧ (after [.hrd 0x32 .word] start).herr = true ∧
    (after [.hrd 0x1800 .word] start).herr = true ∧ (after [.hrd 0x1000 .word] start).hrdata = some 0 := by decide +kernel

theorem test_host_write :
    (after [.hwr 0x08 .word 0xABCD0003, .hrd 0x08 .word] start).hrdata = some 0x00000003 ∧
    (after [.hwr 0x100 .byte 0x5A, .hrd 0x100 .byte] start).hrdata = some 0x0000005A ∧
    (after [.hwr 0x00 .word 0xFFFF0183] start).result = 0x00000001 := by decide +kernel

theorem test_host_write_refused :
    exec (.hwr 0x1C .word 1) start = .next { start with herr := true } ∧
    exec (.hwr 0x1100 .byte 1) start = .next { start with herr := true } ∧
    exec (.hwr 0x00 .word 0x00000007) start = .next { start with result := 0x00000300 } := ⟨rfl, rfl, rfl⟩

/-- `STATUS` of program P7 after its inter-character timeout. -/
theorem test_status_word : (after [.runIn] (later 8000 partly)).statusWord.extractLsb' 0 6 = 0x24 := by decide +kernel

/-! ### Port events (43_client_fsm_timer.md, 95_test_vectors.md part 3) -/

theorem test_tick :
    (after [.tick] start).time = 1001 ∧ (after [.tick] { start with time := 0xFFFFFFFF }).time = 0 := by decide +kernel

theorem test_run_out :
    (sending.slot 0).life = .sent ∧ sending.tmr = .response ∧ sending.tmrStart = 1000 ∧ sending.txEn = true ∧
    sending.fsm = .emission := by decide +kernel

/-- The second half of source property S6: `ACTIVE` moves on once, and then rests (90_conflicts.md C2). -/
theorem test_run_out_idle :
    (after [.runOut] (later 2000 timedOut)).active = 1 ∧ (after [.runOut] (later 2000 timedOut)).tmr = .none ∧
    (after [.runOut, .runOut] (later 2000 timedOut)).active = 1 := by decide +kernel

theorem test_tx_ready :
    (after [.txReady] sending).txOut = some 0x01 ∧ ((after [.txReady] sending).slot 0).txIdx = 1 ∧
    (after [.txReady] sending).ctr[1] = 1 := by decide +kernel

theorem test_tx_ready_turns_round :
    waiting.fsm = .reception ∧ waiting.txEn = false ∧ waiting.tmr = .response ∧
    (after [.txReady] broadcasting).txOut = some 0x00 := by decide +kernel

theorem test_rx_byte :
    (partly.slot 0).rxFrame = [0x01, 0x03, 0x04] ∧ partly.tmr = .interchar ∧ partly.ctr[0] = 3 ∧
    ((after [.rxByte 0x55 0xF] partly).slot 0).validMask = 0x0F ∧ (after [.rxByte 0x55 0] queued).ctr[0] = 1 := by
  decide +kernel

/-- The good response and the exception response of 45_frame_parser.md R228. -/
theorem test_rx_validation :
    (((after ([0x12, 0x34, 0x56, 0x78, 0x81, 0x07].map fun b => .rxByte b 0) partly).slot 0).validMask = 0x00) ∧
    (((after ([0x12, 0x34, 0x56, 0x78, 0x81, 0x06].map fun b => .rxByte b 0) partly).slot 0).validMask = 0x40) ∧
    ((after ([0x01, 0x83, 0x02, 0xC0, 0xF1].map fun b => .rxByte b 0) waiting).ctr[12] = 1) ∧
    ((after ([0x01, 0x83, 0x02, 0xC0, 0xF0].map fun b => .rxByte b 0) waiting).ctr[12] = 0) := by decide +kernel

theorem test_run_in_response_timeout :
    (timedOut.slot 0).validMask = 0x10 ∧ timedOut.ctr[4] = 1 ∧ (timedOut.slot 0).life = .finished ∧
    timedOut.tmr = .interframe ∧ timedOut.fsm = .idle ∧
    (after [.runIn] (later 49999 waiting)).tmr = .response := by decide +kernel

theorem test_run_in_interchar_timeout :
    ((after [.runIn] (later 8000 partly)).slot 0).validMask = 0x80 ∧ (after [.runIn] (later 8000 partly)).fsm = .ignoring ∧
    (after [.runIn] (later 8000 partly)).ctr[5] = 1 ∧
    (after [.runIn] (later 8000 (unknownLength partly))).fsm = .idle := by decide +kernel

/-! ### Witnesses: states and operands that meet the hypotheses of the statements -/

theorem start_wf : start.Wf := State.wf_of_check (by decide +kernel)
theorem start_inv : start.Inv := State.inv_of_check (by decide +kernel)
theorem queued_inv : queued.Inv := State.inv_of_check (by decide +kernel)
theorem sending_inv : sending.Inv := State.inv_of_check (by decide +kernel)
theorem allSent_inv : allSent.Inv := State.inv_of_check (by decide +kernel)
theorem waiting_inv : waiting.Inv := State.inv_of_check (by decide +kernel)
theorem partly_inv : partly.Inv := State.inv_of_check (by decide +kernel)
theorem timedOut_inv : timedOut.Inv := State.inv_of_check (by decide +kernel)
theorem taken_inv : taken.Inv := State.inv_of_check (by decide +kernel)
theorem broadcasting_inv : broadcasting.Inv := State.inv_of_check (by decide +kernel)

theorem witness_ResetState :
    ({ rst := true, evt := 1 } : PortIn).rst = true ∧ start.Wf ∧ Params.examples.wf = true :=
  ⟨rfl, start_wf, rfl⟩

theorem witness_ResetMeetsInvariant :
    ({ Params.examples with idxW := 1 } : Params).wf = true ∧ ({ Params.examples with idxW := 8 } : Params).wf = true := by
  decide

theorem witness_EveryStepKeepsShape : start.Wf ∧ ∃ t, step start = .next t := ⟨start_wf, _, rfl⟩
theorem witness_EveryStepKeepsInvariant : start.Inv ∧ ∃ t, step start = .next t := ⟨start_inv, _, rfl⟩

theorem witness_ReachableStore :
    Params.examples.wf = true ∧ ∃ s : State,
      Host.Core.run Sys2Proof.core 3 ({ State.resetWith Params.examples 5 with inputs := [{ evt := 1 }] } : State) = .next s :=
  ⟨rfl, _, rfl⟩

theorem witness_ReachableTimer :
    Params.examples.wf = true ∧ ∃ s : State,
      Host.Core.run Sys2Proof.core 2 ({ State.resetWith Params.examples 5 with inputs := [{ evt := 1 }] } : State) = .next s :=
  ⟨rfl, _, rfl⟩

theorem witness_TimeMovesOnlyByTick : Instr.txReady ≠ .tick ∧ ∃ t, exec .txReady start = .next t := ⟨by decide, _, rfl⟩

theorem witness_TimeIsRelative :
    (∃ t, exec .runOut queued = .next t) ∧ (∃ t, exec .rst start = .next t) ∧
    (∃ t, exec (.hrd 0x1C .word) start = .next t) ∧ ∀ z, Instr.hrd 0x1C .word ≠ .hrd 0x24 z :=
  ⟨⟨_, rfl⟩, ⟨_, rfl⟩, ⟨_, rfl⟩, by intro z h; simp at h⟩

/-- Every clause of the statement has an operation that does change its part of the state. -/
theorem witness_WritersOfEachRegister :
    (after [.hwr 8 .word 5] start).args ≠ start.args ∧ (after [.crcGen] start).result ≠ start.result ∧
    (after [.runOut] start).fsm ≠ start.fsm ∧ taken.front ≠ timedOut.front ∧ queued.back ≠ start.back ∧
    (after [.runOut] (later 2000 timedOut)).active ≠ timedOut.active ∧ queued.slots ≠ start.slots ∧
    sending.tmr ≠ queued.tmr ∧ (after [.hwr 0x30 .word 5] start).durResponse ≠ start.durResponse ∧
    (after [.rxByte 0 0] start).ctr ≠ start.ctr ∧ sending.txEn ≠ queued.txEn ∧
    (after [.hwr 0x100 .byte 5] start).mem ≠ start.mem ∧ (after [.txReady] sending).wire ≠ sending.wire ∧
    (Instr.hwr 8 .word 5).wf = true := by decide +kernel

theorem witness_RequestIsImmutable :
    (Instr.txReady).wf = true ∧ (∃ t, exec .txReady sending = .next t) ∧
    (∃ r, load 1 3 [0x00, 0x03, 0x00, 0x02] 9 true = some r) :=
  ⟨rfl, ⟨_, rfl⟩, ⟨_, rfl⟩⟩

theorem witness_ValidityIsMonotonic :
    (∃ t, exec .dequeue timedOut = .next t) ∧ (timedOut.slot 0).validMask.getLsbD 4 = true ∧ (Instr.dequeue).wf = true :=
  ⟨⟨_, rfl⟩, by decide +kernel, rfl⟩

theorem witness_LifecycleProgress : queued.Inv ∧ (Instr.runOut).wf = true ∧ ∃ t, exec .runOut queued = .next t :=
  ⟨queued_inv, rfl, _, rfl⟩

theorem witness_CountersOnlyGrow :
    (∃ t, exec .txReady sending = .next t) ∧ (Instr.txReady).wf = true ∧ Instr.txReady ≠ .clearCounters ∧
    Instr.txReady ≠ .rst :=
  ⟨⟨_, rfl⟩, rfl, by decide, by decide⟩

theorem witness_InvalidateJoins : start.active < start.slots.length := by decide +kernel

theorem witness_DecodeEncode :
    (Instr.hwr 0 .word 0x07).wf = true ∧ (Instr.rxByte 0xFF 0xF).wf = true ∧
    decode { evt := 0b10000 } = .ok .runOut := by decide

theorem witness_StepRunsDecoded :
    ({ start with pins := { evt := 4 } } : State).pins.isQuiet = false ∧
    decode ({ start with pins := { evt := 4 } } : State).pins = .ok .txReady ∧
    start.pins.isQuiet = true ∧ decode start.nextPins = .ok .runIn ∧ (Instr.rst).wf = true := by decide

theorem witness_OneClockCycle :
    start.pins.isQuiet = true ∧ start.inputs.headD {} = {} ∧
    ({ start with inputs := [{ rst := true }] } : State).inputs.headD {} = { rst := true } := by decide

/-- The clauses of the encoder statements: a full queue, room, and counts at the ends of each range. -/
theorem witness_Encoders :
    queued.Wf ∧ queued.noRoom ∧ start.Wf ∧ ¬ start.noRoom ∧
    ((operands 0 1 0 1 start).arg 1).toNat = 1 ∧ ((operands 0 2000 0 1 start).arg 1).toNat = 2000 ∧
    ((operands 0 1968 0 1 start).arg 1).toNat = 1968 ∧ ((operands 0 125 0 121 start).arg 3).toNat = 121 ∧
    ((operands 0 0 0 0 start).arg 1).toNat = 0 ∧ ((operands 0 252 256 1 start).arg 3).getLsbD 0 = true ∧
    ((operands 0 252 256 0xFFFE start).arg 3).getLsbD 0 = false :=
  ⟨queued_inv.wf, rfl, start_wf, by unfold State.noRoom; decide +kernel, by decide +kernel⟩

theorem witness_BitReads : (operands 0 2000 0 0 start).Wf ∧ ¬ (operands 0 2000 0 0 start).noRoom :=
  ⟨State.wf_of_check (by decide +kernel), by unfold State.noRoom; decide +kernel⟩

theorem witness_RegisterReads : (operands 0 125 0 0 start).Wf ∧ ¬ (operands 0 125 0 0 start).noRoom :=
  ⟨State.wf_of_check (by decide +kernel), by unfold State.noRoom; decide +kernel⟩

theorem witness_SingleCoilWrite :
    start.Wf ∧ start.arg 1 = 0 ∧ (operands 5 1 0 0 start).Wf ∧ (operands 5 1 0 0 start).arg 1 ≠ 0 :=
  ⟨start_wf, by decide +kernel, State.wf_of_check (by decide +kernel), by decide +kernel⟩

theorem witness_FixedRequests : start.Wf ∧ ¬ start.noRoom ∧ queued.Wf ∧ queued.noRoom :=
  ⟨start_wf, by unfold State.noRoom; decide +kernel, queued_inv.wf, rfl⟩

theorem witness_MultipleWrites :
    (operands 0 123 0 0 start).Wf ∧ ((operands 0 123 0 0 start).arg 1).toNat = 123 ∧ ¬ (operands 0 123 0 0 start).noRoom :=
  ⟨State.wf_of_check (by decide +kernel), by decide +kernel, by unfold State.noRoom; decide +kernel⟩

theorem witness_ReadWriteRegisters : (operands 0 125 0 121 start).Wf ∧ ¬ (operands 0 125 0 121 start).noRoom :=
  ⟨State.wf_of_check (by decide +kernel), by unfold State.noRoom; decide +kernel⟩

theorem witness_RawEnqueue :
    (operands 0x2B 252 256 1 start).Wf ∧ ((operands 0x2B 252 256 1 start).arg 3).getLsbD 0 = true ∧
    ((operands 0x2B 252 257 2 start).arg 3).getLsbD 0 = false ∧ ¬ (operands 0x2B 252 256 1 start).noRoom :=
  ⟨State.wf_of_check (by decide +kernel), by decide +kernel, by decide +kernel, by unfold State.noRoom; decide +kernel⟩

/-- On a slot never used, and on one that was dequeued. -/
theorem witness_EnqueueSparesLiveSlots :
    start.Inv ∧ isEnqueue (.readHoldingRegisters 1) = true ∧
    exec (.readHoldingRegisters 1) (operands 3 2 0 0 start) = .next queued ∧
    (operands 3 2 0 0 start).Inv ∧ queued.slot 0 ≠ (operands 3 2 0 0 start).slot 0 ∧
    reused.Inv ∧ (∃ t, exec (.readHoldingRegisters 1) reused = .next t ∧ t.slot 0 ≠ reused.slot 0) ∧
    (reused.slot 0).life = .dequeued :=
  ⟨State.inv_of_check (by decide +kernel), rfl, rfl, State.inv_of_check (by decide +kernel), by decide +kernel,
    State.inv_of_check (by decide +kernel), ⟨_, rfl, by decide +kernel⟩, by decide +kernel⟩

theorem witness_DequeueCommand :
    timedOut.Wf ∧ (timedOut.front ≠ timedOut.back ∧ (timedOut.slot timedOut.front).life = .finished) ∧
    queued.Wf ∧ ¬ (queued.front ≠ queued.back ∧ (queued.slot queued.front).life = .finished) :=
  ⟨timedOut_inv.wf, by decide +kernel, queued_inv.wf, by decide +kernel⟩

theorem witness_CrcCommands :
    252 < ((operands 0 253 0 0 start).arg 1).toNat ∧ ((operands 0 252 0 0 start).arg 1).toNat ≤ 252 ∧
    crcCheck ((List.range 2).map (staged [0xFF, 0xFF] start).wdataByte) = true ∧
    crcCheck ((List.range 0).map start.wdataByte) = false := by decide +kernel

theorem witness_CrcRoundTrip : ([0x00] : List Byte).length < 2 := by decide
theorem witness_CrcResidue : 2 ≤ ([0xFF, 0xFF] : List Byte).length := by decide

theorem witness_CommandWrite :
    decodeCommand 0x00000081 = .ok .dequeue ∧
    (0x00000086 : Word).extractLsb' 0 8 ∉ [(0x01 : Byte), 0x02, 0x03, 0x04, 0x05, 0x06, 0x08, 0x0B, 0x0F, 0x10, 0x17,
        0x80, 0x81, 0x82, 0x83, 0x84, 0x85] ∧
    (0x00000081 : Word).extractLsb' 0 16 = (0xFFFF0081 : Word).extractLsb' 0 16 := by decide

theorem witness_StatusLayout : sending.Wf := sending_inv.wf

theorem witness_SlotWindow :
    partly.Wf ∧ 0 < partly.n ∧ 7 < (partly.slot 0).txLen ∧ (partly.slot 0).txLen ≤ 8 ∧ 2 < (partly.slot 0).rxCnt ∧
    (partly.slot 0).rxCnt ≤ 255 ∧
    (∀ off ∈ [0x00C, 0x0FF], 0x00C ≤ off ∧ off < 0x100) ∧ (∀ off ∈ [0x300, 0x3FF], 0x300 ≤ off ∧ off < 0x400) :=
  ⟨partly_inv.wf, by decide +kernel⟩

theorem witness_LegalAccess :
    sizedMapped start.n 0x84 .word ∧ ¬ sizedMapped start.n 0x2C .word ∧ sizedMapped start.n 0x1FB .byte ∧
    ¬ sizedMapped start.n 0x1FC .byte ∧ writeMapped 0x1FB ∧ ¬ writeMapped 0x1C := by
  refine ⟨?_, ?_, ?_, ?_, ?_, ?_⟩
  · exact .inr (.inl ⟨17, by decide⟩)
  · rintro (h | ⟨k, hk, h⟩ | ⟨i, hi, h⟩)
    · exact absurd h (by decide)
    · omega
    · omega
  · exact .inl (by decide)
  · simp [sizedMapped, byteMapped]; omega
  · exact .inr (by decide)
  · simp [writeMapped]

theorem witness_HostWrites : decodeCommand 0x00000083 = .ok .clearCounters ∧ 251 < 252 := by decide

theorem witness_TransmitReady :
    (∃ t, exec .runOut queued = .next t) ∧
    sending.Wf ∧ sending.fsm = .emission ∧ sending.activeSlot.txIdx < sending.activeSlot.txLen ∧
    allSent.Wf ∧ allSent.fsm = .emission ∧ allSent.activeSlot.txLen ≤ allSent.activeSlot.txIdx ∧ start.fsm ≠ .emission :=
  ⟨⟨_, rfl⟩, sending_inv.wf, by decide +kernel, by decide +kernel, allSent_inv.wf, by decide +kernel⟩

/-- Outside reception; in the middle of a frame; at the last byte of one. -/
theorem witness_ReceiveByte :
    queued.Wf ∧ queued.fsm ≠ .reception ∧ partly.Wf ∧ partly.fsm = .reception ∧ ¬ partly.activeSlot.completesNext ∧
    ({ partly.activeSlot with expLen := 4 } : Slot).completesNext := by
  refine ⟨queued_inv.wf, by decide +kernel, partly_inv.wf, by decide +kernel, ?_, ?_⟩
  · unfold Slot.completesNext; decide +kernel
  · unfold Slot.completesNext; decide +kernel

theorem witness_ValidationSteps : partly.active < partly.slots.length := by decide +kernel

theorem witness_PollWithoutExpiry :
    start.tmr = .none ∧ timedOut.tmr = .interframe ∧ ¬ waiting.passed (waiting.duration waiting.tmr) := by
  unfold State.passed; decide +kernel

theorem witness_ResponseTimeout :
    (later 50000 waiting).Wf ∧ (later 50000 waiting).tmr = .response ∧
    (later 50000 waiting).passed (later 50000 waiting).durResponse ∧ (later 50000 waiting).Inv :=
  ⟨State.wf_of_check (by decide +kernel), by decide +kernel, by unfold State.passed; decide +kernel,
    State.inv_of_check (by decide +kernel)⟩

theorem witness_SilenceEndsFrame :
    (later 8000 (unknownLength partly)).Wf ∧ (later 8000 (unknownLength partly)).tmr = .interchar ∧
    (later 8000 (unknownLength partly)).passed (later 8000 (unknownLength partly)).durInterchar ∧
    (later 8000 (unknownLength partly)).activeSlot.lenKnown = false ∧ (later 8000 (unknownLength partly)).Inv :=
  ⟨State.wf_of_check (by decide +kernel), by decide +kernel, by unfold State.passed; decide +kernel, by decide +kernel,
    State.inv_of_check (by decide +kernel)⟩

theorem witness_IntercharTimeout :
    (later 8000 partly).Wf ∧ (later 8000 partly).tmr = .interchar ∧ (later 8000 partly).passed (later 8000 partly).durInterchar ∧
    (later 8000 partly).activeSlot.lenKnown = true :=
  ⟨State.wf_of_check (by decide +kernel), by decide +kernel, by unfold State.passed; decide +kernel, by decide +kernel⟩

theorem witness_TurnaroundOver :
    (later 500 broadcasting).Wf ∧ (later 500 broadcasting).tmr = .turnaround ∧
    (later 500 broadcasting).passed (later 500 broadcasting).durTurnaround ∧ (later 500 broadcasting).Inv :=
  ⟨State.wf_of_check (by decide +kernel), by decide +kernel, by unfold State.passed; decide +kernel,
    State.inv_of_check (by decide +kernel)⟩

theorem witness_ExpiryCountsTicks : Tmr.response ≠ .none ∧ 4294967295 < 2 ^ 32 := by decide

/-- `available_to_send`: a queued transaction to claim; one in flight; none. -/
theorem witness_RunOut_available :
    queued.Inv ∧ queued.sendable = true ∧ queued.OldestUnfinished 0 ∧
    sending.Inv ∧ sending.activeSlot.life = .sent ∧ timedOut.Inv ∧ timedOut.sendable = false :=
  ⟨queued_inv, by decide +kernel, ⟨by decide +kernel, by decide +kernel, fun i hi => absurd hi (by omega)⟩,
    sending_inv, by decide +kernel, timedOut_inv, by decide +kernel⟩

/-- The gate closed; open with a queued transaction; open with none. -/
theorem witness_RunOut :
    ¬ sending.gateOpen ∧ queued.Inv ∧ queued.gateOpen ∧ queued.NextToSend 0 ∧ taken.Inv ∧
    (later 2000 taken).gateOpen ∧ ∀ j, j < taken.size → taken.ringLife j = .finished := by
  refine ⟨?_, queued_inv, .inl (by decide +kernel), ⟨by decide +kernel, by decide +kernel, fun i hi => absurd hi (by omega)⟩,
    taken_inv, .inr ⟨by decide +kernel, by unfold State.passed; decide +kernel⟩, ?_⟩
  · unfold State.gateOpen State.passed; decide +kernel
  · have h : taken.size = 0 := by decide +kernel
    intro j hj; omega

theorem witness_AdvanceSettles : timedOut.Inv ∧ timedOut.sendable = false := ⟨timedOut_inv, by decide +kernel⟩

theorem witness_FrameSpacing :
    exec .runOut queued = .next sending ∧ queued.fsm ≠ .emission ∧ sending.fsm = .emission ∧ (Instr.runOut).wf = true :=
  ⟨rfl, by decide +kernel, by decide +kernel, rfl⟩

theorem witness_TerminalConditions :
    (later 50000 waiting).Inv ∧ exec .runIn (later 50000 waiting) = .next timedOut ∧
    ((later 50000 waiting).slot 0).life ≠ .finished ∧ (timedOut.slot 0).life = .finished :=
  ⟨State.inv_of_check (by decide +kernel), rfl, by decide +kernel, by decide +kernel⟩

theorem witness_SilentLineEnds : waiting.Inv ∧ waiting.inFlight = true ∧ partly.Inv ∧ partly.inFlight = true :=
  ⟨waiting_inv, by decide +kernel, partly_inv, by decide +kernel⟩

theorem witness_FrameOnTheWire : sending.Wf ∧ sending.fsm = .emission ∧ sending.activeSlot.txIdx = 0 :=
  ⟨sending_inv.wf, by decide +kernel⟩

theorem witness_ResponseAccepted :
    waiting.Wf ∧ waiting.fsm = .reception ∧ waiting.activeSlot.rxCnt = 0 ∧ waiting.activeSlot.validMask = 0 ∧
    waiting.activeSlot.lenKnown = true ∧
    waiting.activeSlot.expLen = ([0x01, 0x03, 0x04, 0x12, 0x34, 0x56, 0x78, 0x81, 0x07] : List Byte).length ∧
    crcCheck [0x01, 0x03, 0x04, 0x12, 0x34, 0x56, 0x78, 0x81, 0x07] = true ∧ (0x01 : Byte) = waiting.activeSlot.txByte 0 ∧
    waiting.activeSlot.txByte 0 ≠ 0 ∧ (0x03 : Byte).getLsbD 7 = false :=
  ⟨waiting_inv.wf, by decide +kernel⟩

theorem witness_ReadyStaysReady :
    timedOut.Inv ∧ timedOut.irqResp = true ∧ (∃ t, exec .runOut timedOut = .next t) ∧ (Instr.runOut).wf = true :=
  ⟨timedOut_inv, by decide +kernel, ⟨_, rfl⟩, rfl⟩

end Sys2Proof.Tests
end

section
/-! SUPPORT. Command words and the locations of the bus: a write to `CMD` is the command. -/

namespace Sys2Proof.Machine

/-! ### The decoder of opcodes -/

/-- The decoder accepts exactly the legal opcodes (30_encoding.md R83). -/
theorem decodeOpcode_eq_none_iff (op : Byte) : decodeOpcode op = none ↔ op ∉ legalOpcodes := by
  constructor
  · intro h hop
    have hlegal : ∀ op ∈ legalOpcodes, decodeOpcode op ≠ none := by decide
    exact hlegal op hop h
  · intro h
    simp only [legalOpcodes, List.mem_cons, not_or] at h
    simp only [decodeOpcode, h, if_false]

/-- A legal opcode runs the command it decodes to. -/
theorem runOpcode_eq_exec (op : Opcode) (dev : Byte) (s : State) : runOpcode op dev s = exec (op.toInstr dev) s := by
  cases op <;> rfl

/-! ### Command words -/

/-- A command word with a legal opcode runs its command (10_state.md R23). -/
theorem runCommandWord_of_decode {w : Word} {i : Instr} (h : decodeCommand w = .ok i) (s : State) :
    runCommandWord w s = exec i s := by
  cases hop : decodeOpcode (wordOpcode w) with
  | none => simp [decodeCommand, hop] at h
  | some op =>
    obtain rfl : op.toInstr (wordDev w) = i := by simpa [decodeCommand, hop] using h
    simp only [runCommandWord, hop, runOpcode_eq_exec]

/-- A command word with any other opcode is rejected (30_encoding.md R86). -/
theorem runCommandWord_of_illegal {w : Word} (h : wordOpcode w ∉ legalOpcodes) (s : State) :
    runCommandWord w s = .next (s.rejectCommand .illegalOpcode) := by
  simp only [runCommandWord, (decodeOpcode_eq_none_iff _).2 h]

/-- Opcode and `dev` stand in bits 15:0, so the upper half of a word has no effect (30_encoding.md R81). -/
theorem runCommandWord_congr {w w' : Word} (h : w.extractLsb' 0 16 = w'.extractLsb' 0 16) (s : State) :
    runCommandWord w s = runCommandWord w' s := by
  have hop (v : Word) : wordOpcode v = (v.extractLsb' 0 16).extractLsb' 0 8 :=
    (BitVec.extractLsb'_extractLsb'_of_le (by decide)).symm
  have hdev (v : Word) : wordDev v = (v.extractLsb' 0 16).extractLsb' 8 8 :=
    (BitVec.extractLsb'_extractLsb'_of_le (by decide)).symm
  simp only [runCommandWord, hop, hdev, h]

/-- A rejected command changes `RESULT` and `HERR` only (30_encoding.md R85). -/
theorem State.rejected_rejectCommand (s : State) (r : Reject) : Rejected s (s.rejectCommand r) (resultReject r) :=
  ⟨rfl, rfl, rfl⟩

/-! ### Locations of the bus -/

theorem locateRegister_eq_cmd {a : Nat} (h : locateRegister a = some .cmd) : a = 0 := by
  simpa [locateRegister, ite_eq_iff] using h

theorem locateRegister_ne_wdata (a k : Nat) : locateRegister a ≠ some (.wdata k) := by
  simp [locateRegister, ite_eq_iff]

theorem locateWindow_ne_cmd (i off : Nat) : locateWindow i off ≠ some .cmd := by
  simp [locateWindow, ite_eq_iff]

theorem locateWindow_ne_wdata (i off k : Nat) : locateWindow i off ≠ some (.wdata k) := by
  simp [locateWindow, ite_eq_iff]

/-- `CMD` is at address 0 and nowhere else (20_memory.md R61). -/
theorem locate_eq_cmd {n : Nat} {addr : Word} (h : locate n addr = some .cmd) : addr = 0 := by
  have hz : addr.toNat = 0 := by
    grind [locate, locateRegister_eq_cmd, locateWindow_ne_cmd]
  exact BitVec.eq_of_toNat_eq hz

/-- `WDATA` has 252 bytes on the bus (20_memory.md R61). -/
theorem locate_wdata_lt {n : Nat} {addr : Word} {k : Nat} (h : locate n addr = some (.wdata k)) :
    k < Config.wdataCap := by
  grind [locate, locateRegister_ne_wdata, locateWindow_ne_wdata]

/-- An access finds the location at its address, which has the size of the access (20_memory.md R64). -/
theorem State.access_eq_some_iff (s : State) (addr : Word) (size : HSize) (l : Loc) :
    s.access addr size = some l ↔ locate s.n addr = some l ∧ l.size = size := by
  simp [State.access, Option.filter_eq_some_iff]

/-- Settles O36: a word write to `CMD` is its command word, whose two branches are the command and the rejection. -/
theorem commandWrite : Obligations.CommandWrite := by
  intro s
  have hcmd (w : Word) : exec (.hwr 0 .word w) s = runCommandWord w s := rfl
  refine ⟨fun w i hi => ?_, fun w hw => ?_, fun w w' h => ?_, rfl⟩
  · rw [hcmd, runCommandWord_of_decode hi]
  · exact ⟨_, (hcmd w).trans (runCommandWord_of_illegal hw s), s.rejected_rejectCommand .illegalOpcode⟩
  · rw [hcmd, hcmd, runCommandWord_congr h]

end Sys2Proof.Machine
end

section
/-! SUPPORT. The places of the ring, counted from `FRONT`, and the fields of the status words. -/

namespace Sys2Proof.Machine

/-! ### Places of the ring -/

/-- How many places `SLOT[i]` lies after `FRONT`, going round the ring. -/
def State.place (s : State) (i : Nat) : Nat := (i + s.n - s.front) % s.n

theorem State.size_eq_place (s : State) : s.size = s.place s.back := rfl

theorem State.activeOffset_eq_place (s : State) : s.activeOffset = s.place s.active := rfl

theorem State.place_lt (s : State) (i : Nat) : s.place i < s.n := Nat.mod_lt _ s.n_pos

/-- The place of an index, written without the modulus. -/
theorem State.place_eq_ite {s : State} (hf : s.front < s.n) {i : Nat} (hi : i < s.n) :
    s.place i = if s.front ≤ i then i - s.front else i + s.n - s.front := by
  unfold State.place
  split
  · rw [mod_of_window (by omega) (by omega)]; omega
  · exact Nat.mod_eq_of_lt (by omega)

/-- The index of a place, written without the modulus. -/
theorem State.index_eq_ite {s : State} (hf : s.front < s.n) {j : Nat} (hj : j < s.n) :
    (s.front + j) % s.n = if s.front + j < s.n then s.front + j else s.front + j - s.n := by
  split
  · exact Nat.mod_eq_of_lt ‹_›
  · exact mod_of_window (by omega) (by omega)

/-- The slot at the place of an index is the slot of that index. -/
theorem State.index_place {s : State} (hf : s.front < s.n) {i : Nat} (hi : i < s.n) :
    (s.front + s.place i) % s.n = i := by
  rw [State.index_eq_ite hf (s.place_lt i), State.place_eq_ite hf hi]
  split_ifs <;> omega

/-- The place of the index of a place is that place. -/
theorem State.place_index {s : State} (hf : s.front < s.n) {j : Nat} (hj : j < s.n) :
    s.place ((s.front + j) % s.n) = j := by
  rw [State.place_eq_ite hf (Nat.mod_lt _ s.n_pos), State.index_eq_ite hf hj]
  split_ifs <;> omega

/-! ### The status words -/

theorem State.responseReady_iff (s : State) :
    s.responseReady = true ↔ s.front ≠ s.back ∧ (s.slot s.front).life = .finished := by
  simp [State.responseReady]

/-- `expired()` (43_client_fsm_timer.md R163). -/
theorem State.expired_iff (s : State) : s.expired = true ↔ s.tmr ≠ .none ∧ s.passed (s.duration s.tmr) := by
  unfold State.expired
  rw [Bool.and_eq_true, bne_iff_ne, decide_eq_true_iff]
  rfl

/-- `STATUS` bits 2:0 (10_state.md R30). -/
theorem State.statusWord_fsm (s : State) : s.statusWord.extractLsb' 0 3 = s.fsm.code := by
  simp (disch := omega) only [State.statusWord, BitVec.extractLsb'_append_eq_of_add_le, BitVec.extractLsb'_eq_self]

/-- `STATUS` bits 5:3. -/
theorem State.statusWord_tmr (s : State) : s.statusWord.extractLsb' 3 3 = s.tmr.code := by
  simp (disch := omega) only [State.statusWord, BitVec.extractLsb'_append_eq_of_add_le,
    BitVec.extractLsb'_append_eq_of_le, BitVec.extractLsb'_eq_self, Nat.sub_self]

/-- `STATUS` bits 31:10. -/
theorem State.statusWord_reserved (s : State) : s.statusWord.extractLsb' 10 22 = 0 := by
  simp (disch := omega) only [State.statusWord, BitVec.extractLsb'_append_eq_of_le, BitVec.extractLsb'_eq_self,
    Nat.reduceSub, BitVec.ofNat_eq_ofNat]

/-- `STATUS` bits 9:6. -/
theorem State.statusWord_flags (s : State) :
    s.statusWord.getLsbD 6 = s.txEn ∧ s.statusWord.getLsbD 7 = s.responseReady ∧
    s.statusWord.getLsbD 8 = s.full ∧ s.statusWord.getLsbD 9 = s.expired := by
  simp only [State.statusWord, BitVec.getLsbD_append]
  simp

/-- The four bytes of `QSTAT` (10_state.md R31). -/
theorem State.qstatWord_fields (s : State) :
    s.qstatWord.extractLsb' 0 8 = BitVec.ofNat 8 s.front ∧ s.qstatWord.extractLsb' 8 8 = BitVec.ofNat 8 s.back ∧
    s.qstatWord.extractLsb' 16 8 = BitVec.ofNat 8 s.active ∧ s.qstatWord.extractLsb' 24 8 = BitVec.ofNat 8 s.size := by
  simp (disch := omega) only [State.qstatWord, BitVec.extractLsb'_append_eq_of_add_le,
    BitVec.extractLsb'_append_eq_of_le, BitVec.extractLsb'_eq_self, Nat.reduceSub, and_self]

/-- Indices and the size of a well-formed state fit into a byte (10_state.md R25, R31). -/
theorem State.Wf.toNat_ofNat_byte {s : State} (h : s.Wf) {i : Nat} (hi : i < s.n) : (BitVec.ofNat 8 i).toNat = i := by
  have := h.n_le
  rw [BitVec.toNat_ofNat, Nat.mod_eq_of_lt (by omega)]

/-- Settles O38: each field of `STATUS` and `QSTAT` is the register or the derived bit at its place. -/
theorem statusLayout : Obligations.StatusLayout := by
  intro s h
  obtain ⟨htxEn, hready, hfull, hexpired⟩ := s.statusWord_flags
  obtain ⟨hfront, hback, hactive, hsize⟩ := s.qstatWord_fields
  refine ⟨?_, ?_, htxEn, ?_, ?_, ?_, s.statusWord_reserved, ?_, ?_, ?_, ?_, ?_⟩
  · rw [s.statusWord_fsm]; cases s.fsm <;> rfl
  · rw [s.statusWord_tmr]; cases s.tmr <;> rfl
  · rw [hready, s.responseReady_iff]
  · rw [hfull, State.full_iff_noRoom h]
  · rw [hexpired, s.expired_iff]
  · rw [hfront, h.toNat_ofNat_byte h.front]
  · rw [hback, h.toNat_ofNat_byte h.back]
  · rw [hactive, h.toNat_ofNat_byte h.active]
  · rw [hsize, h.toNat_ofNat_byte s.size_lt]
    exact State.index_place h.front h.back
  · rw [hsize, h.toNat_ofNat_byte s.size_lt]
    exact s.size_lt

end Sys2Proof.Machine
end

section
/-! SUPPORT. Everything an operation can do, as one inversion of `exec`; and what that means for the counters. -/

namespace Sys2Proof.Machine

/-! ### The outcomes of an operation -/

/-- The state after a request has been accepted into `SLOT[BACK]` (44_pdu_encoders.md R190). -/
def State.accept (s : State) (r : Request) : State :=
  ({ s with
    slots := s.slots.set s.back (((s.slot s.back).overwrite r).mark .queued)
    back := s.inc s.back } : State).commandDone (resultOk 0)

/-- The outcomes of each operation, one constructor for each branch of its rule. The data of a bus access and the
result of a CRC command are left unspecified: they decide nothing about the rest of the state. -/
inductive Effect (s : State) : Instr → State → Prop
  | rejected {i : Instr} (hi : isCommand i = true) (r : Reject) : Effect s i (s.rejectCommand r)
  | accepted {i : Instr} {dev fc : Byte} {p : List Byte} {exp : Nat} {known : Bool} {r : Request}
      (hi : isEnqueue i = true) (hfull : s.full = false) (hr : load dev fc p exp known = some r) :
      Effect s i (s.accept r)
  | dequeued (hready : s.responseReady = true) :
      Effect s .dequeue (s.dequeueFront.commandDone (resultOk (BitVec.ofNat 16 s.front)))
  | queueReset : Effect s .queueReset (({ s.clearQueue with txEn := false }.leave .idle).commandDone (resultOk 0))
  | countersCleared : Effect s .clearCounters ({ s with ctr := Vector.replicate 18 0 }.commandDone (resultOk 0))
  | crc {i : Instr} (hi : i = .crcGen ∨ i = .crcChk) (result : Word) : Effect s i (s.commandDone result)
  | tick : Effect s .tick { s with time := s.time + 1 }
  | rxIgnored {b : Byte} {e : BitVec 4} (hfsm : s.fsm ≠ .reception) : Effect s (.rxByte b e) (s.bump 0)
  | rxStored {b : Byte} {e : BitVec 4} (hfsm : s.fsm = .reception) :
      Effect s (.rxByte b e) (((s.bump 0).pushRxByte b).rxFlags e).afterRxByte
  | txByte (hfsm : s.fsm = .emission) (hleft : s.activeSlot.isFullySent = false) :
      Effect s .txReady (((s.setActive s.activeSlot.popTxByte).wireTx s.activeSlot.nextTxByte).bump 1)
  | txTurned (hfsm : s.fsm = .emission) (hsent : s.activeSlot.isFullySent = true) :
      Effect s .txReady { ({ s with txEn := false }).arm s.activeSlot.waitTimer with fsm := .reception }
  | txIdle (hfsm : s.fsm ≠ .emission) : Effect s .txReady { s with txEn := false }
  | notExpired (hexpired : s.expired = false) : Effect s .runIn s
  | expired (hexpired : s.expired = true) : Effect s .runIn s.onExpiry
  | gateClosed (hgate : s.gate = false) : Effect s .runOut s
  | claimed (hgate : s.gate = true) (hsend : s.sendable = true) : Effect s .runOut s.claim.startEmission
  | nothingToSend (hgate : s.gate = true) (hsend : s.sendable = false) :
      Effect s .runOut { s.advance with tmr := .none, fsm := .idle }
  | hrd {addr : Word} {size : HSize} (data : Option Word) (err : Bool) (reads : Nat) :
      Effect s (.hrd addr size) { s with hrdata := data, herr := err, staleReads := reads }
  | hwrCommand {addr : Word} {size : HSize} {data : Word} {op : Opcode} {t : State} (haddr : addr = 0)
      (hsize : size = .word) (hop : decodeOpcode (wordOpcode data) = some op)
      (heffect : Effect s (op.toInstr (wordDev data)) t) : Effect s (.hwr addr size data) t
  | hwrIllegal {addr : Word} {size : HSize} {data : Word} :
      Effect s (.hwr addr size data) (s.rejectCommand .illegalOpcode)
  | hwrArg {addr : Word} {size : HSize} {data : Word} (k : Fin 5) (v : Half) :
      Effect s (.hwr addr size data) { s.setArg k v with herr := false }
  | hwrDuration {addr : Word} {size : HSize} {data : Word} (d : Duration) (v : Word) :
      Effect s (.hwr addr size data) { s.setDurationReg v d with herr := false }
  | hwrWdata {addr : Word} {size : HSize} {data : Word} {k : Nat} (hk : k < Config.wdataCap) (v : Byte) :
      Effect s (.hwr addr size data) { s.setWdata k v with herr := false }
  | hwrRefused {addr : Word} {size : HSize} {data : Word} : Effect s (.hwr addr size data) s.refuseWrite
  | rst : Effect s .rst { State.resetWith s.params s.time with
      slots := s.slots.map Slot.reset
      wire := s.wire
      inputs := s.inputs
      resets := s.resets + 1
      staleReads := s.staleReads }

variable {s t : State} {i : Instr}

theorem isCommand_of_isEnqueue (h : isEnqueue i = true) : isCommand i = true := by
  cases i with
  | readCoils | readDiscreteInputs | readHoldingRegisters | readInputRegisters | writeSingleCoil
  | writeSingleRegister | diagnostics | getCommEventCounter | writeMultipleCoils | writeMultipleRegisters
  | readWriteMultipleRegisters | enqRaw => rfl
  | dequeue | queueReset | clearCounters | crcGen | crcChk | tick | rxByte | txReady | runIn | runOut | hrd | hwr
  | rst => cases h

/-- An enqueuing command is the common flow of the encoders with operands of its own. -/
theorem exec_eq_encodeAndEnqueue (s : State) (h : isEnqueue i = true) :
    ∃ dev fc ok p1 p2 exp known, exec i s = .next (s.encodeAndEnqueue dev fc ok p1 p2 exp known) := by
  cases i with
  | readCoils | readDiscreteInputs | readHoldingRegisters | readInputRegisters | writeSingleCoil
  | writeSingleRegister | diagnostics | getCommEventCounter | writeMultipleCoils | writeMultipleRegisters
  | readWriteMultipleRegisters | enqRaw => exact ⟨_, _, _, _, _, _, _, rfl⟩
  | dequeue | queueReset | clearCounters | crcGen | crcChk | tick | rxByte | txReady | runIn | runOut | hrd | hwr
  | rst => cases h

theorem effect_of_enqueue (hi : isEnqueue i = true) (h : exec i s = .next t) : Effect s i t := by
  obtain ⟨dev, fc, ok, p1, p2, exp, known, he⟩ := exec_eq_encodeAndEnqueue s hi
  obtain rfl : s.encodeAndEnqueue dev fc ok p1 p2 exp known = t := by simpa [he] using h
  rcases s.encodeAndEnqueue_cases dev fc ok p1 p2 exp known with hb | hq | ⟨r, hfull, -, hr, ha⟩
  · rw [hb]; exact .rejected (isCommand_of_isEnqueue hi) _
  · rw [hq]; exact .rejected (isCommand_of_isEnqueue hi) _
  · rw [ha]; exact .accepted hi hfull hr

theorem effect_of_dequeue (h : exec .dequeue s = .next t) : Effect s .dequeue t := by
  change execDequeue s = .next t at h
  unfold execDequeue at h
  split at h <;> cases h
  · exact .dequeued ‹_›
  · exact .rejected rfl _

theorem effect_of_crcGen (h : exec .crcGen s = .next t) : Effect s .crcGen t := by
  change execCrcGen s = .next t at h
  unfold execCrcGen at h
  split at h <;> cases h <;> exact .crc (.inl rfl) _

theorem effect_of_crcChk (h : exec .crcChk s = .next t) : Effect s .crcChk t := by
  change execCrcChk s = .next t at h
  unfold execCrcChk at h
  split at h <;> cases h <;> exact .crc (.inr rfl) _

theorem effect_of_command (hi : isCommand i = true) (h : exec i s = .next t) : Effect s i t := by
  cases i with
  | readCoils | readDiscreteInputs | readHoldingRegisters | readInputRegisters | writeSingleCoil
  | writeSingleRegister | diagnostics | getCommEventCounter | writeMultipleCoils | writeMultipleRegisters
  | readWriteMultipleRegisters | enqRaw => exact effect_of_enqueue rfl h
  | dequeue => exact effect_of_dequeue h
  | queueReset => cases h; exact .queueReset
  | clearCounters => cases h; exact .countersCleared
  | crcGen => exact effect_of_crcGen h
  | crcChk => exact effect_of_crcChk h
  | tick | rxByte | txReady | runIn | runOut | hrd | hwr | rst => cases hi

theorem effect_of_rxByte {b : Byte} {e : BitVec 4} (h : exec (.rxByte b e) s = .next t) :
    Effect s (.rxByte b e) t := by
  change execRxByte b e s = .next t at h
  unfold execRxByte at h
  split at h <;> cases h
  · exact .rxStored ‹_›
  · exact .rxIgnored ‹_›

theorem effect_of_txReady (h : exec .txReady s = .next t) : Effect s .txReady t := by
  change execTxReady s = .next t at h
  unfold execTxReady at h
  split at h
  · split at h <;> cases h
    · exact .txTurned ‹_› ‹_›
    · exact .txByte ‹_› (Bool.eq_false_iff.2 ‹_›)
  · cases h
    exact .txIdle ‹_›

theorem effect_of_runIn (h : exec .runIn s = .next t) : Effect s .runIn t := by
  change Host.Outcome.next (if s.expired then s.onExpiry else s) = .next t at h
  split at h <;> cases h
  · exact .expired ‹_›
  · exact .notExpired (Bool.eq_false_iff.2 ‹_›)

theorem effect_of_runOut (h : exec .runOut s = .next t) : Effect s .runOut t := by
  change execRunOut s = .next t at h
  unfold execRunOut at h
  split at h
  · split at h <;> cases h
    · exact .claimed ‹_› ‹_›
    · exact .nothingToSend ‹_› (Bool.eq_false_iff.2 ‹_›)
  · cases h
    exact .gateClosed (Bool.eq_false_iff.2 ‹_›)

theorem effect_of_hrd {addr : Word} {size : HSize} (h : exec (.hrd addr size) s = .next t) :
    Effect s (.hrd addr size) t := by
  change execHrd addr size s = .next t at h
  unfold execHrd at h
  split at h <;> cases h
  · unfold State.readOut
    split
    · exact .hrd _ _ _
    · exact .hrd _ _ s.staleReads
  · exact .hrd _ _ s.staleReads

theorem isCommand_toInstr (op : Opcode) (dev : Byte) : isCommand (op.toInstr dev) = true := by
  cases op <;> rfl

theorem effect_of_hwr {addr : Word} {size : HSize} {data : Word} (h : exec (.hwr addr size data) s = .next t) :
    Effect s (.hwr addr size data) t := by
  change execHwr addr size data s = .next t at h
  unfold execHwr at h
  cases ha : s.access addr size with
  | none =>
    obtain rfl : s.refuseWrite = t := by simpa [ha] using h
    exact .hwrRefused
  | some l =>
    obtain ⟨hl, hsize⟩ := (s.access_eq_some_iff addr size l).1 ha
    rw [ha] at h
    cases l with
    | cmd =>
      change runCommandWord data s = .next t at h
      cases hop : decodeOpcode (wordOpcode data) with
      | none =>
        obtain rfl : s.rejectCommand .illegalOpcode = t := by simpa [runCommandWord, hop] using h
        exact .hwrIllegal
      | some op =>
        simp only [runCommandWord, hop, runOpcode_eq_exec] at h
        exact .hwrCommand (locate_eq_cmd hl) hsize.symm hop (effect_of_command (isCommand_toInstr _ _) h)
    | arg k => cases h; exact .hwrArg k _
    | dur d => cases h; exact .hwrDuration d _
    | wdata k => cases h; exact .hwrWdata (locate_wdata_lt hl) _
    | result | status | qstat | time | tmrStart | ctr | slotHdr0 | slotHdr1 | slotHdr2 | slotTx | slotRx =>
      cases h; exact .hwrRefused

/-- Every operation has one of its outcomes. -/
theorem effect_of_exec (h : exec i s = .next t) : Effect s i t := by
  cases i with
  | readCoils | readDiscreteInputs | readHoldingRegisters | readInputRegisters | writeSingleCoil
  | writeSingleRegister | diagnostics | getCommEventCounter | writeMultipleCoils | writeMultipleRegisters
  | readWriteMultipleRegisters | enqRaw | dequeue | queueReset | clearCounters | crcGen | crcChk =>
    exact effect_of_command rfl h
  | tick => cases h; exact .tick
  | rxByte => exact effect_of_rxByte h
  | txReady => exact effect_of_txReady h
  | runIn => exact effect_of_runIn h
  | runOut => exact effect_of_runOut h
  | hrd => exact effect_of_hrd h
  | hwr => exact effect_of_hwr h
  | rst => cases h; exact .rst

/-! ### Counters never go down -/

/-- No counter of `t` is below that of `s`. -/
structure State.CountersLe (s t : State) : Prop where
  le : ∀ k : Fin 18, s.ctr[k].toNat ≤ t.ctr[k].toNat

theorem State.countersLe_of_eq (h : t.ctr = s.ctr) : s.CountersLe t := ⟨fun k => by rw [h]⟩

theorem State.CountersLe.trans {u : State} (hst : s.CountersLe t) (htu : t.CountersLe u) : s.CountersLe u :=
  ⟨fun k => (hst.le k).trans (htu.le k)⟩

/-- Only the counters of the two states count. -/
theorem State.CountersLe.congr {s' t' : State} (h : s.CountersLe t) (hs : s.ctr = s'.ctr) (ht : t'.ctr = t.ctr) :
    s'.CountersLe t' :=
  ⟨fun k => by rw [← hs, ht]; exact h.le k⟩

theorem State.countersLe_bump (s : State) (j : Fin 18) : s.CountersLe (s.bump j) := by
  constructor
  intro k
  by_cases hk : k = j
  · subst hk
    rw [s.ctr_bump_same]
    exact satInc_le _
  · rw [s.ctr_bump_other hk]

theorem State.countersLe_invalidate (s : State) (a : Anomaly) : s.CountersLe (s.invalidate a) :=
  (State.countersLe_bump (s.setActive (s.activeSlot.flag a)) a.counter).congr rfl rfl

theorem State.countersLe_invalidateIf (s : State) (c : Bool) (a : Anomaly) : s.CountersLe (s.invalidateIf c a) := by
  cases c with
  | false => exact State.countersLe_of_eq rfl
  | true => exact s.countersLe_invalidate a

theorem State.countersLe_rxFlags (s : State) (e : BitVec 4) : s.CountersLe (s.rxFlags e) :=
  (((s.countersLe_invalidateIf _ _).trans (State.countersLe_invalidateIf _ _ _)).trans
    (State.countersLe_invalidateIf _ _ _)).trans (State.countersLe_invalidateIf _ _ _)

theorem State.countersLe_pushRxByte (s : State) (b : Byte) : s.CountersLe (s.pushRxByte b) := by
  unfold State.pushRxByte
  split
  · exact State.countersLe_of_eq rfl
  · exact s.countersLe_invalidate .receiverOverrun

theorem State.countersLe_bumpOpt (s : State) (k : Option (Fin 18)) : s.CountersLe (s.bumpOpt k) := by
  cases k with
  | none => exact State.countersLe_of_eq rfl
  | some k => exact s.countersLe_bump k

theorem State.countersLe_countException (s : State) : s.CountersLe s.countException := by
  unfold State.countException
  split
  · exact (s.countersLe_bump 10).trans (State.countersLe_bumpOpt _ _)
  · exact State.countersLe_of_eq rfl

theorem State.countersLe_validate (s : State) : s.CountersLe s.validate := by
  have haddr : s.CountersLe s.checkAddress := s.countersLe_invalidateIf _ _
  have hcrc : s.checkAddress.CountersLe s.checkAddress.checkCrc := State.countersLe_invalidateIf _ _ _
  have hexc := State.countersLe_countException s.checkAddress.checkCrc
  have hctr : s.validate.ctr = s.checkAddress.checkCrc.countException.ctr := by
    rw [State.validate, State.markFinished_ctr]
  exact ((haddr.trans hcrc).trans hexc).congr rfl hctr

/-- The end of a frame, in `RX_BYTE` and in `RUN_IN`: the delay is armed, and the transaction is validated. -/
theorem State.countersLe_endOfFrame (s : State) : s.CountersLe s.endOfFrame := by
  have hctr : s.endOfFrame.ctr = (s.arm .interframe).validate.ctr := by rw [State.endOfFrame]
  exact (State.countersLe_validate (s.arm .interframe)).congr (s.arm_ctr _) hctr

theorem State.countersLe_afterRxByte (s : State) : s.CountersLe s.afterRxByte := by
  unfold State.afterRxByte
  split
  · exact s.countersLe_endOfFrame
  · exact State.countersLe_of_eq rfl

theorem State.countersLe_onExpiry (s : State) : s.CountersLe s.onExpiry := by
  unfold State.onExpiry
  split
  · exact State.countersLe_of_eq rfl
  · exact (s.countersLe_invalidate .responseTimeout).congr rfl rfl
  · split
    · exact (s.countersLe_invalidate .intercharTimeout).congr rfl rfl
    · exact s.countersLe_endOfFrame
  · exact State.countersLe_of_eq rfl
  · exact State.countersLe_of_eq rfl

/-- A word write to `CMD` with a legal opcode is no well-formed `HWR` (10_state.md R23). -/
theorem wf_hwr_command {addr : Word} {size : HSize} {data : Word} {op : Opcode} (haddr : addr = 0)
    (hsize : size = .word) (hop : decodeOpcode (wordOpcode data) = some op) :
    (Instr.hwr addr size data).wf = false := by
  have hmem : data.extractLsb' 0 8 ∈ legalOpcodes := by
    by_contra hnot
    have hnone : decodeOpcode (wordOpcode data) = none := (decodeOpcode_eq_none_iff _).2 hnot
    rw [hnone] at hop
    cases hop
  subst haddr hsize
  simpa [Instr.wf, isCommandWrite] using hmem

/-- Only the clearing operations lower a counter (10_state.md R41). -/
theorem Effect.countersLe (h : Effect s i t) (hwf : i.wf = true) (hclear : i ≠ .clearCounters) (hrst : i ≠ .rst) :
    s.CountersLe t := by
  cases h with
  | countersCleared => exact absurd rfl hclear
  | rst => exact absurd rfl hrst
  | hwrCommand haddr hsize hop => exact absurd hwf (by simp [wf_hwr_command haddr hsize hop])
  | rxIgnored => exact s.countersLe_bump 0
  | @rxStored b e =>
    exact (((s.countersLe_bump 0).trans (State.countersLe_pushRxByte _ b)).trans
      (State.countersLe_rxFlags _ e)).trans (State.countersLe_afterRxByte _)
  | txByte => exact (s.countersLe_bump 1).congr rfl rfl
  | expired => exact s.countersLe_onExpiry
  | hwrDuration d => cases d <;> exact State.countersLe_of_eq rfl
  | rejected | accepted | dequeued | queueReset | crc | tick | txTurned | txIdle | notExpired | gateClosed | claimed
  | nothingToSend | hrd | hwrIllegal | hwrArg | hwrWdata | hwrRefused => exact State.countersLe_of_eq rfl

/-- Settles O14: the clearing operations by computation, every other one by its outcomes. -/
theorem countersOnlyGrow : Obligations.CountersOnlyGrow := by
  refine ⟨fun s k => ?_, fun i s hi => ?_, fun i s t k hwf hclear hrst h => ?_⟩
  · rw [s.ctr_bump_same, satInc_toNat]
  · rcases hi with rfl | rfl <;> exact ⟨_, rfl, fun k => Vector.getElem_replicate _⟩
  · exact ((effect_of_exec h).countersLe hwf hclear hrst).le k

end Sys2Proof.Machine
end

section
/-! SUPPORT. The ring (10_state.md R39 (a) to (d)) seen from `FRONT`, and the moves that keep it. -/

namespace Sys2Proof.Machine

/-! ### Arithmetic of the ring -/

/-- The increment of an index, written without the modulus. -/
theorem State.inc_eq_ite {s : State} {i : Nat} (hi : i < s.n) : s.inc i = if i + 1 = s.n then 0 else i + 1 := by
  unfold State.inc
  split
  · simp [*]
  · exact Nat.mod_eq_of_lt (by omega)

/-- Different indices have different places. -/
theorem State.place_inj {s : State} (hf : s.front < s.n) {i j : Nat} (hi : i < s.n) (hj : j < s.n) :
    s.place i = s.place j ↔ i = j := by
  constructor
  · intro h
    rw [← State.index_place hf hi, h, State.index_place hf hj]
  · rintro rfl
    rfl

theorem State.place_front {s : State} (hf : s.front < s.n) : s.place s.front = 0 := by
  simp [State.place_eq_ite hf hf]

/-- One index further is one place further, round the ring. -/
theorem State.place_inc {s : State} (hf : s.front < s.n) {i : Nat} (hi : i < s.n) :
    s.place (s.inc i) = if s.place i + 1 = s.n then 0 else s.place i + 1 := by
  rw [State.place_eq_ite hf (s.inc_lt i), State.place_eq_ite hf hi, State.inc_eq_ite hi]
  split_ifs <;> omega

/-- The lifecycle state at the place of an index is that of its slot. -/
theorem State.ringLife_place {s : State} (hf : s.front < s.n) {i : Nat} (hi : i < s.n) :
    s.ringLife (s.place i) = (s.slot i).life := by
  rw [State.ringLife, State.index_place hf hi]

/-- What replacing one slot does to the lifecycle states round the ring. -/
theorem State.ringLife_of_set {s t : State} {i : Nat} {A : Slot} (hf : s.front < s.n)
    (hlen : s.slots.length = s.n) (hi : i < s.n) (hn : t.n = s.n) (hfront : t.front = s.front)
    (hslots : t.slots = s.slots.set i A) {j : Nat} (hj : j < s.n) :
    t.ringLife j = Function.update s.ringLife (s.place i) A.life j := by
  have hslot (k : Nat) : t.slot k = (s.setSlot i A).slot k := by rw [State.slot, hslots]; rfl
  rw [State.ringLife, hn, hfront, hslot]
  by_cases h : j = s.place i
  · subst h
    rw [State.index_place hf hi, s.slot_setSlot_same (hlen ▸ hi), Function.update_self]
  · have hne : (s.front + j) % s.n ≠ i := by
      rintro rfl
      exact h (State.place_index hf hj).symm
    rw [s.slot_setSlot_other hne, Function.update_of_ne h, State.ringLife]

/-! ### The ring as a function of places -/

/-- `State.Ring` for `n` places, `size` of them live, `ACTIVE` at place `off`, and the lifecycle state of each place. -/
structure RingShape (n size off : Nat) (life : Nat → Life) : Prop where
  position :
    (off < size ∧ (∀ j, j < off → life j = .finished) ∧
      (life off = .finished ∨ life off = .sent ∨ life off = .queued) ∧
      ∀ j, off < j → j < size → life j = .queued) ∨
    (off = size ∧ ∀ j, j < size → life j = .finished) ∨
    (off = n - 1 ∧ life off = .dequeued ∧ ∀ j, j < size → life j = .queued)
  outside : ∀ j, size ≤ j → j < n → life j = .unused ∨ life j = .dequeued
  order : ∀ i j, size ≤ i → i ≤ j → j < n → life i = .dequeued → life j = .dequeued

/-- The ring of a state is the shape of its places. -/
theorem State.ring_iff_shape {s : State} (hf : s.front < s.n) (hb : s.back < s.n) (ha : s.active < s.n) :
    s.Ring ↔ RingShape s.n s.size s.activeOffset s.ringLife := by
  have hback : s.active = s.back ↔ s.activeOffset = s.size := (State.place_inj hf ha hb).symm
  have hactive : s.activeSlot.life = s.ringLife s.activeOffset := (State.ringLife_place hf ha).symm
  constructor
  · rintro ⟨hp, ho, hd⟩
    refine ⟨?_, ho, hd⟩
    rwa [State.ActiveLive, State.ActiveAtBack, State.ActiveLagging, hback, hactive] at hp
  · rintro ⟨hp, ho, hd⟩
    refine ⟨?_, ho, hd⟩
    rwa [State.ActiveLive, State.ActiveAtBack, State.ActiveLagging, hback, hactive]

section
variable {n size off : Nat} {life life' : Nat → Life}

/-- Only the `n` places of the ring count. -/
theorem RingShape.congr (h : RingShape n size off life) (hsize : size < n) (hoff : off < n)
    (hlife : ∀ j, j < n → life' j = life j) : RingShape n size off life' := by
  obtain ⟨hp, ho, hd⟩ := h
  refine ⟨?_, fun j h1 h2 => by rw [hlife j h2]; exact ho j h1 h2, fun i j h1 h2 h3 => ?_⟩
  · have hlive (l : Life) (h : ∀ j, j < size → life j = l) : ∀ j, j < size → life' j = l :=
      fun j hj => (hlife j (by omega)).trans (h j hj)
    rcases hp with ⟨h1, h2, h3, h4⟩ | ⟨h1, h2⟩ | ⟨h1, h2, h3⟩
    · refine .inl ⟨h1, fun j hj => (hlife j (by omega)).trans (h2 j hj), ?_, fun j hj hs =>
        (hlife j (by omega)).trans (h4 j hj hs)⟩
      rwa [hlife off hoff]
    · exact .inr (.inl ⟨h1, hlive _ h2⟩)
    · exact .inr (.inr ⟨h1, (hlife off hoff).trans h2, hlive _ h3⟩)
  · rw [hlife i (by omega), hlife j h3]
    exact hd i j h1 h2 h3

/-- A transaction at `ACTIVE` that is queued or in flight is live: finished ones before it, queued ones after it. -/
theorem RingShape.live (h : RingShape n size off life) (hoff : off < n)
    (hlife : life off = .sent ∨ life off = .queued) :
    off < size ∧ (∀ j, j < off → life j = .finished) ∧ ∀ j, off < j → j < size → life j = .queued := by
  rcases h.position with ⟨h1, h2, -, h4⟩ | ⟨h1, -⟩ | ⟨-, h2, -⟩
  · exact ⟨h1, h2, h4⟩
  · rcases h.outside off h1.ge hoff with hu | hu <;> simp [hu] at hlife
  · simp [h2] at hlife

/-- Only the place of `ACTIVE` can be in flight (10_state.md R39 (c)). -/
theorem RingShape.sent_only_active (h : RingShape n size off life) {j : Nat} (hj : j < n) (hsent : life j = .sent) :
    j = off := by
  by_contra hne
  have hin : j < size := by
    by_contra hout
    rcases h.outside j (by omega) hj with hu | hu <;> simp [hu] at hsent
  rcases h.position with ⟨-, h2, -, h4⟩ | ⟨-, h2⟩ | ⟨-, -, h3⟩
  · rcases Nat.lt_or_gt_of_ne hne with hlt | hgt
    · simp [h2 j hlt] at hsent
    · simp [h4 j hgt hin] at hsent
  · simp [h2 j hin] at hsent
  · simp [h3 j hin] at hsent

/-- A transaction at `ACTIVE` that is queued or in flight may become sent or finished. -/
theorem RingShape.update_active (h : RingShape n size off life) (hoff : off < n)
    (hlife : life off = .sent ∨ life off = .queued) {l : Life} (hl : l = .sent ∨ l = .finished) :
    RingShape n size off (Function.update life off l) := by
  obtain ⟨hlive, hbefore, hafter⟩ := h.live hoff hlife
  have hother {j : Nat} (hj : j ≠ off) : Function.update life off l j = life j := Function.update_of_ne hj _ _
  refine ⟨.inl ⟨hlive, fun j hj => ?_, ?_, fun j hj hs => ?_⟩, fun j h1 h2 => ?_, fun i j h1 h2 h3 => ?_⟩
  · rw [hother (by omega)]; exact hbefore j hj
  · rw [Function.update_self]; rcases hl with rfl | rfl <;> simp
  · rw [hother (by omega)]; exact hafter j hj hs
  · rw [hother (by omega)]; exact h.outside j h1 h2
  · rw [hother (by omega), hother (by omega)]; exact h.order i j h1 h2 h3

/-- A request may be loaded at `BACK` while one place stays free (42_message_queue.md R144). -/
theorem RingShape.load (h : RingShape n size off life) (hroom : size + 1 < n) :
    RingShape n (size + 1) off (Function.update life size .queued) := by
  have hother {j : Nat} (hj : j ≠ size) : Function.update life size .queued j = life j := Function.update_of_ne hj _ _
  have hqueued (hq : ∀ j, j < size → life j = .queued) (j : Nat) (hj : j < size + 1) :
      Function.update life size .queued j = .queued := by
    by_cases hjs : j = size
    · rw [hjs, Function.update_self]
    · rw [hother hjs]; exact hq j (by omega)
  refine ⟨?_, fun j h1 h2 => ?_, fun i j h1 h2 h3 => ?_⟩
  · rcases h.position with ⟨h1, h2, h3, h4⟩ | ⟨h1, h2⟩ | ⟨h1, h2, h3⟩
    · refine .inl ⟨by omega, fun j hj => ?_, ?_, fun j hj hs => ?_⟩
      · rw [hother (by omega)]; exact h2 j hj
      · rwa [hother (by omega)]
      · by_cases hjs : j = size
        · rw [hjs, Function.update_self]
        · rw [hother hjs]; exact h4 j hj (by omega)
    · subst h1
      refine .inl ⟨by omega, fun j hj => ?_, ?_, fun j hj hs => by omega⟩
      · rw [hother (by omega)]; exact h2 j hj
      · rw [Function.update_self]; simp
    · refine .inr (.inr ⟨h1, ?_, hqueued h3⟩)
      rw [hother (by omega)]; exact h2
  · rw [hother (by omega)]; exact h.outside j (by omega) h2
  · rw [hother (by omega), hother (by omega)]; exact h.order i j (by omega) h2 h3

/-- The finished transaction at `FRONT` may be dequeued; every place then counts one less, and the dequeued one is the
last (42_message_queue.md R147). -/
theorem RingShape.dequeue (h : RingShape n size off life) (hlive : 0 < size) (hsize : size < n)
    (hfinished : life 0 = .finished) (hlast : life' (n - 1) = .dequeued)
    (hshift : ∀ j, j + 1 < n → life' j = life (j + 1)) :
    RingShape n (size - 1) (if off = 0 then n - 1 else off - 1) life' := by
  refine ⟨?_, fun j h1 h2 => ?_, fun i j h1 h2 h3 hi => ?_⟩
  · rcases h.position with ⟨h1, h2, h3, h4⟩ | ⟨h1, h2⟩ | ⟨-, -, h3⟩
    · split
      · refine .inr (.inr ⟨rfl, hlast, fun j hj => ?_⟩)
        rw [hshift j (by omega)]; exact h4 _ (by omega) (by omega)
      · refine .inl ⟨by omega, fun j hj => ?_, ?_, fun j hj hs => ?_⟩
        · rw [hshift j (by omega)]; exact h2 _ (by omega)
        · rwa [hshift _ (by omega), Nat.sub_add_cancel (by omega)]
        · rw [hshift j (by omega)]; exact h4 _ (by omega) (by omega)
    · rw [if_neg (by omega)]
      refine .inr (.inl ⟨by omega, fun j hj => ?_⟩)
      rw [hshift j (by omega)]; exact h2 _ (by omega)
    · simp [h3 0 hlive] at hfinished
  · by_cases hj : j + 1 < n
    · rw [hshift j hj]; exact h.outside _ (by omega) hj
    · rw [show j = n - 1 by omega, hlast]; simp
  · by_cases hj : j + 1 < n
    · rw [hshift i (by omega)] at hi
      rw [hshift j hj]; exact h.order _ _ (by omega) (by omega) hj hi
    · rw [show j = n - 1 by omega, hlast]

end

/-! ### The advance of `ACTIVE` -/

/-- `BACK` is not passed once the loop has begun (42_message_queue.md R145). -/
theorem State.advanceFrom_back (s : State) (fuel : Nat) : s.advanceFrom fuel false s.back = s.back := by
  cases fuel <;> simp [State.advanceFrom]

/-- Where no slot stops it, the loop comes to rest at `BACK`, here `k` increments away. -/
theorem State.advanceFrom_of_all_done {s : State} (hdone : ∀ i, i < s.n → (s.slot i).life.isDone = true) {k fuel a : Nat} (hk : k ≤ fuel) (ha : a < s.n)
    (hreach : (a + k) % s.n = s.back) : s.advanceFrom fuel false a = s.back := by
  induction fuel generalizing k a with
  | zero =>
    obtain rfl : k = 0 := by omega
    rwa [Nat.add_zero, Nat.mod_eq_of_lt ha] at hreach
  | succ fuel ih =>
    by_cases hback : a = s.back
    · rw [hback, s.advanceFrom_back]
    · cases k with
      | zero => exact absurd (by rwa [Nat.add_zero, Nat.mod_eq_of_lt ha] at hreach) hback
      | succ k =>
        have hstep : s.advanceFrom (fuel + 1) false a = s.advanceFrom fuel false (s.inc a) := by
          simp [State.advanceFrom, hdone a ha, hback]
        rw [hstep]
        refine ih (k := k) (by omega) (s.inc_lt a) ?_
        rw [State.inc, Nat.mod_add_mod, ← hreach]
        congr 1
        omega

/-- The first turn of the loop. -/
theorem State.advance_active_eq_ite (s : State) :
    s.advance.active =
      if s.activeSlot.life.isDone then s.advanceFrom (s.n - 1) false (s.inc s.active) else s.active := by
  obtain ⟨m, hm⟩ := Nat.exists_eq_succ_of_ne_zero s.n_pos.ne'
  simp [hm, State.advanceFrom, State.activeSlot]

/-- `ACTIVE` on a finished transaction moves one place on. -/
theorem RingShape.advance_live {n size off : Nat} {life : Nat → Life} (h : RingShape n size off life)
    (hlive : off < size) (hfinished : life off = .finished) :
    RingShape n size (off + 1) life ∧ (off + 1 = size ∨ life (off + 1) = .queued) := by
  have hbefore : (∀ j, j < off → life j = .finished) ∧ ∀ j, off < j → j < size → life j = .queued := by
    rcases h.position with ⟨-, h2, -, h4⟩ | ⟨h1, -⟩ | ⟨-, h2, -⟩
    · exact ⟨h2, h4⟩
    · omega
    · simp [h2] at hfinished
  have hupto (j : Nat) (hj : j < off + 1) : life j = .finished := by
    by_cases hjo : j = off
    · rw [hjo, hfinished]
    · exact hbefore.1 j (by omega)
  by_cases hend : off + 1 = size
  · exact ⟨⟨.inr (.inl ⟨hend, fun j hj => hupto j (by omega)⟩), h.outside, h.order⟩, .inl hend⟩
  · have hq : life (off + 1) = .queued := hbefore.2 _ (by omega) (by omega)
    exact ⟨⟨.inl ⟨by omega, hupto, .inr (.inr hq), fun j hj => hbefore.2 j (by omega)⟩, h.outside, h.order⟩, .inr hq⟩

/-- `ACTIVE` on the slot dequeued last moves to `FRONT`. -/
theorem RingShape.advance_lagging {n size : Nat} {life : Nat → Life} (h : RingShape n size (n - 1) life)
    (hqueued : ∀ j, j < size → life j = .queued) :
    RingShape n size 0 life ∧ (0 = size ∨ life 0 = .queued) := by
  by_cases hend : 0 = size
  · exact ⟨⟨.inr (.inl ⟨hend, fun j hj => by omega⟩), h.outside, h.order⟩, .inl hend⟩
  · have hq : life 0 = .queued := hqueued 0 (by omega)
    exact ⟨⟨.inl ⟨by omega, fun j hj => by omega, .inr (.inr hq), fun j _ hj => hqueued j hj⟩, h.outside, h.order⟩,
      .inr hq⟩

/-- With a dequeued slot at `BACK` and every live transaction finished, every slot is done. -/
theorem RingShape.all_done {n size off : Nat} {life : Nat → Life} (h : RingShape n size off life)
    (hfinished : ∀ j, j < size → life j = .finished) (hback : life size = .dequeued) {j : Nat} (hj : j < n) :
    (life j).isDone = true := by
  by_cases hin : j < size
  · rw [hfinished j hin]; rfl
  · rw [h.order size j le_rfl (by omega) hj hback]; rfl

section
variable {s : State} (hf : s.front < s.n) (hb : s.back < s.n) (ha : s.active < s.n)
include hf hb

/-- The loop stops at an index whose place is that of `BACK` or holds a queued transaction. -/
theorem State.advanceFrom_stops {i : Nat} (hi : i < s.n)
    (hstop : s.place i = s.size ∨ s.ringLife (s.place i) = .queued) (fuel : Nat) :
    s.advanceFrom fuel false i = i := by
  rcases hstop with hback | hq
  · rw [(State.place_inj hf hi hb).1 hback, s.advanceFrom_back]
  · rw [State.ringLife_place hf hi] at hq
    exact State.advanceFrom_of_not_done _ _ (by rw [hq]; rfl)

include ha

/-- The advance of `ACTIVE` keeps the ring (42_message_queue.md R145). -/
theorem State.advance_ringShape (h : RingShape s.n s.size s.activeOffset s.ringLife) :
    RingShape s.n s.size (s.place s.advance.active) s.ringLife := by
  have hactive : s.activeSlot.life = s.ringLife s.activeOffset := (State.ringLife_place hf ha).symm
  have hsize : s.size < s.n := s.size_lt
  have hnext : s.place (s.inc s.active) = if s.activeOffset + 1 = s.n then 0 else s.activeOffset + 1 :=
    State.place_inc hf ha
  rw [s.advance_active_eq_ite]
  split
  · rename_i hdone
    rw [hactive] at hdone
    rcases h.position with ⟨hlive, -, hlife, -⟩ | ⟨hback, hfinished⟩ | ⟨hlag, -, hqueued⟩
    · have hfinished : s.ringLife s.activeOffset = .finished := by
        rcases hlife with hl | hl | hl
        · exact hl
        all_goals simp [hl, Life.isDone] at hdone
      rw [if_neg (by omega)] at hnext
      obtain ⟨hshape, hstop⟩ := h.advance_live hlive hfinished
      rw [← hnext] at hshape hstop
      rwa [State.advanceFrom_stops hf hb (s.inc_lt _) hstop]
    · have hdequeued : s.ringLife s.size = .dequeued := by
        rcases h.outside s.size le_rfl hsize with hl | hl
        · simp [hback, hl, Life.isDone] at hdone
        · exact hl
      have hall (i : Nat) (hi : i < s.n) : (s.slot i).life.isDone = true := by
        rw [← State.ringLife_place hf hi]
        exact h.all_done hfinished hdequeued (s.place_lt i)
      obtain hab : s.active = s.back := (State.place_inj hf ha hb).1 hback
      have hreach : (s.inc s.active + (s.n - 1)) % s.n = s.back := by
        have := s.n_pos
        rw [State.inc, Nat.mod_add_mod, hab, show s.back + 1 + (s.n - 1) = s.back + s.n by omega,
          Nat.add_mod_right, Nat.mod_eq_of_lt hb]
      rw [State.advanceFrom_of_all_done hall le_rfl (s.inc_lt _) hreach, ← hab]
      exact h
    · have := s.n_pos
      rw [if_pos (by omega)] at hnext
      obtain ⟨hshape, hstop⟩ := (hlag ▸ h).advance_lagging hqueued
      rw [← hnext] at hshape hstop
      rwa [State.advanceFrom_stops hf hb (s.inc_lt _) hstop]
  · exact h

end

end Sys2Proof.Machine
end

section
/-! SUPPORT. What the operations on one record keep: its shape and its record (10_state.md R37, R39 (e), (f)). -/

namespace Sys2Proof.Machine

/-! ### The shape of a slot -/

theorem Slot.Wf.setFlags {t : Slot} (h : t.Wf) (m : Byte) (l : Life) :
    ({ t with validMask := m, life := l } : Slot).Wf :=
  ⟨h.txLen_le, h.tx_le, h.txIdx_le, h.rxCnt_le, h.rx_le, h.expLen_le⟩

theorem Slot.Wf.reset {t : Slot} (h : t.Wf) : t.reset.Wf :=
  ⟨Nat.zero_le _, h.tx_le, le_rfl, Nat.zero_le _, h.rx_le, Nat.zero_le _⟩

theorem Slot.Wf.popTxByte {t : Slot} (h : t.Wf) (hleft : t.isFullySent = false) : t.popTxByte.Wf := by
  rw [Slot.popTxByte_of_unsent hleft]
  have hlt : t.txIdx < t.txLen := by simpa [Slot.isFullySent] using hleft
  exact ⟨h.txLen_le, h.tx_le, hlt, h.rxCnt_le, h.rx_le, h.expLen_le⟩

theorem Slot.Wf.storeRx {t : Slot} (h : t.Wf) (hroom : t.rxCnt < Config.rxCap) (b : Byte) : (t.storeRx b).Wf := by
  have hcnt := h.rxCnt_le
  have hrx := h.rx_le
  have hlen : (t.storeRx b).rx.length = max t.rx.length (t.rxCnt + 1) := by
    simp [Slot.storeRx]; omega
  exact ⟨h.txLen_le, h.tx_le, h.txIdx_le, hlen ▸ le_max_right _ _, hlen ▸ max_le hrx hroom, h.expLen_le⟩

/-- A request that `load` accepts fits into the buffers (41_transaction.md R121). -/
theorem load_bounds {dev fc : Byte} {p : List Byte} {exp : Nat} {known : Bool} {r : Request}
    (h : load dev fc p exp known = some r) :
    r.frame = withCrc (dev :: fc :: p) ∧ 4 ≤ r.frame.length ∧ r.frame.length ≤ Config.txCap ∧
      r.expLen ≤ Config.rxCap := by
  unfold load at h
  split at h
  · cases h
  · split at h
    · cases h
    · rename_i hlen hexp
      obtain rfl := Option.some.inj h
      refine ⟨frameOf_eq_withCrc dev fc p, ?_, ?_, ?_⟩
      · simp [length_frameOf]
      · simp only [length_frameOf]; omega
      · cases known with
        | false => simp
        | true => simpa using hexp

theorem Slot.Wf.overwrite {t : Slot} (h : t.Wf) {r : Request} (hlen : r.frame.length ≤ Config.txCap)
    (hexp : r.expLen ≤ Config.rxCap) : (t.overwrite r).Wf := by
  have htx := h.tx_le
  have hmax : (t.overwrite r).tx.length = max r.frame.length t.tx.length := by
    simp [Slot.overwrite]; omega
  exact ⟨hmax ▸ le_max_left _ _, hmax ▸ max_le hlen htx, Nat.zero_le _, Nat.zero_le _, h.rx_le, hexp⟩

/-! ### The CRC of a request frame -/

theorem ofLoHi_bytes (v : Half) : ofLoHi (loByte v) (hiByte v) = v := by
  apply BitVec.eq_of_getLsbD_eq
  intro i hi
  simp only [ofLoHi, loByte, hiByte, BitVec.getLsbD_or, BitVec.getLsbD_setWidth, BitVec.getLsbD_shiftLeft,
    BitVec.getLsbD_extractLsb']
  by_cases h : i < 8
  · simp [h, hi]
  · have h8 : 8 + (i - 8) = i := by omega
    simp [h, hi, h8, show i - 8 < 8 by omega, show i - 8 < 16 by omega]

/-- A string followed by its CRC passes the check (40_crc16.md R115). -/
theorem crcCheck_withCrc (bytes : List Byte) : crcCheck (withCrc bytes) = true := by
  have hlen : (withCrc bytes).length = bytes.length + 2 := by simp [withCrc]
  have hcrc : trailingCrc (withCrc bytes) = crcGenerate bytes := by
    rw [trailingCrc, hlen]
    simp [withCrc, ofLoHi_bytes]
  have htake : (withCrc bytes).take bytes.length = bytes := by simp [withCrc]
  simp [crcCheck, hlen, hcrc, htake]

/-! ### The record of a transaction -/

/-- The request of `B` is that of `A`. -/
structure Slot.SameRequest (A B : Slot) : Prop where
  tx : B.tx = A.tx
  txLen : B.txLen = A.txLen

section
variable {A B : Slot}

/-- A record in flight keeps what it needs as long as its request stays (41_transaction.md R134). -/
theorem Slot.Record.of_sent (h : A.Record) (hA : A.life ≠ .unused) (hreq : A.SameRequest B) (hB : B.life = .sent) :
    B.Record := by
  have hframe : B.txFrame = A.txFrame := by rw [Slot.txFrame, hreq.tx, hreq.txLen, Slot.txFrame]
  refine ⟨fun _ => by rw [hreq.txLen]; exact h.loaded hA, fun _ => by rw [hframe]; exact h.checked hA, ?_, ?_⟩
  · simp [hB]
  · simp [hB, Life.isDone]

/-- A record that finishes needs a reason (10_state.md R39 (f)). -/
theorem Slot.Record.of_done (h : A.Record) (hA : A.life ≠ .unused) (hreq : A.SameRequest B)
    (hB : B.life.isDone = true) (hreason : 0 < B.rxCnt ∨ B.validMask ≠ 0 ∨ B.txByte 0 = 0) : B.Record := by
  have hframe : B.txFrame = A.txFrame := by rw [Slot.txFrame, hreq.tx, hreq.txLen, Slot.txFrame]
  refine ⟨fun _ => by rw [hreq.txLen]; exact h.loaded hA, fun _ => by rw [hframe]; exact h.checked hA,
    fun hq => ?_, fun _ => hreason⟩
  simp [hq, Life.isDone] at hB

theorem Slot.record_of_unused (h : A.life = .unused) : A.Record :=
  ⟨fun hn => absurd h hn, fun hn => absurd h hn, fun hq => by simp [h] at hq, fun hd => by simp [h, Life.isDone] at hd⟩

theorem Slot.record_overwrite (t : Slot) {r : Request} (hlen : 4 ≤ r.frame.length)
    (hcheck : crcCheck r.frame = true) : ((t.overwrite r).mark .queued).Record := by
  refine ⟨fun _ => hlen, fun _ => ?_, fun _ => ⟨rfl, rfl, rfl⟩, fun hd => by cases hd⟩
  rw [Slot.txFrame_mark, Slot.txFrame_overwrite, hcheck]

end

end Sys2Proof.Machine
end

section
/-! SUPPORT. What the invariant of the engine reads, and when a change of slots or of the timer keeps it. -/

namespace Sys2Proof.Machine

variable {s t u : State}

/-! ### What the invariant reads -/

/-- The part of the state that the shape, the ring and the records are about. -/
def State.store (s : State) : Params × Nat × Nat × Nat × List Slot × Memory :=
  (s.params, s.front, s.back, s.active, s.slots, s.mem)

/-- The relation of `FSM` and `TMR` reads four things of the active record. -/
theorem State.Sequenced.congr (h : s.Sequenced) (hfsm : t.fsm = s.fsm) (htmr : t.tmr = s.tmr)
    (hlife : t.activeSlot.life = s.activeSlot.life) (hcnt : t.activeSlot.rxCnt = s.activeSlot.rxCnt)
    (hmask : t.activeSlot.validMask = s.activeSlot.validMask)
    (haddr : t.activeSlot.txByte 0 = s.activeSlot.txByte 0) : t.Sequenced := by
  have hflight : t.inFlight = s.inFlight := by simp only [State.inFlight, hfsm]
  obtain ⟨h1, h2, h3, h4, h5, h6⟩ := h
  constructor <;> simpa only [hfsm, htmr, hflight, hlife, hcnt, hmask, haddr]

theorem State.Sequenced.congr_slot (h : s.Sequenced) (hfsm : t.fsm = s.fsm) (htmr : t.tmr = s.tmr)
    (hactive : t.activeSlot = s.activeSlot) : t.Sequenced :=
  h.congr hfsm htmr (by rw [hactive]) (by rw [hactive]) (by rw [hactive]) (by rw [hactive])

/-- A state with the same store and a timer that fits meets the invariant too. -/
theorem State.Inv.of_store (h : s.Inv) (hstore : t.store = s.store) (hseq : t.Sequenced) : t.Inv := by
  obtain ⟨hwf, hring, -, hrec⟩ := h
  simp only [State.store, Prod.mk.injEq] at hstore
  obtain ⟨hparams, hfront, hback, hactive, hslots, hmem⟩ := hstore
  cases s
  cases t
  subst hparams hfront hback hactive hslots hmem
  obtain ⟨w1, w2, w3, w4, w5, w6, w7, w8⟩ := hwf
  obtain ⟨r1, r2, r3⟩ := hring
  exact ⟨⟨w1, w2, w3, w4, w5, w6, w7, w8⟩, ⟨r1, r2, r3⟩, hseq, hrec⟩

theorem State.activeSlot_of_store (hstore : t.store = s.store) : t.activeSlot = s.activeSlot := by
  simp only [State.store, Prod.mk.injEq] at hstore
  obtain ⟨-, -, -, hactive, hslots, -⟩ := hstore
  rw [State.activeSlot, State.slot, hactive, hslots]
  rfl

/-- Operations that leave the store, `FSM` and `TMR` alone keep the invariant. -/
theorem State.Inv.of_eq (h : s.Inv) (hstore : t.store = s.store) (hfsm : t.fsm = s.fsm) (htmr : t.tmr = s.tmr) :
    t.Inv :=
  h.of_store hstore (h.seq.congr_slot hfsm htmr (State.activeSlot_of_store hstore))

/-! ### `FSM` and `TMR` -/

/-- With no transaction's timer running, `FSM` and `TMR` fit if no transaction is in flight. -/
theorem State.sequenced_of_quiet (htmr : s.tmr = .none ∨ s.tmr = .interframe) (hfits : timerFits s.fsm s.tmr = true)
    (hsent : s.activeSlot.life ≠ .sent) : s.Sequenced := by
  have hflight : s.inFlight = false := by
    cases hf : s.fsm <;> rcases htmr with ht | ht <;> simp [hf, ht, timerFits, State.inFlight] at hfits ⊢
  refine ⟨hfits, fun h => ?_, fun h => absurd h hsent, fun h => ?_, fun h => ?_, fun h => ?_⟩
  · simp [hflight] at h
  all_goals rcases htmr with ht | ht <;> simp [ht] at h

/-- A transaction is in flight exactly while one of its timers runs: by the table of fitting pairs
(10_state.md R46). -/
theorem State.Sequenced.inFlight_iff (h : s.Sequenced) : s.inFlight = true ↔ s.tmr ≠ .none ∧ s.tmr ≠ .interframe := by
  have hfits := h.timer
  cases hf : s.fsm <;> cases ht : s.tmr <;> simp [hf, ht, timerFits, State.inFlight] at hfits ⊢

theorem State.Sequenced.quiet (h : s.Sequenced) (hsent : s.activeSlot.life ≠ .sent) :
    s.tmr = .none ∨ s.tmr = .interframe := by
  by_contra hnot
  exact hsent (h.sent (h.inFlight_iff.2 (not_or.1 hnot)))

/-! ### Operations on one slot -/

section
variable {i : Nat} {B : Slot} (hslots : t.slots = s.slots.set i B)
include hslots

theorem State.slot_of_set_same (hi : i < s.slots.length) : t.slot i = B := by
  rw [State.slot, hslots]
  exact s.slot_setSlot_same hi B

theorem State.slot_of_set_other {j : Nat} (hj : j ≠ i) : t.slot j = s.slot j := by
  rw [State.slot, hslots]
  exact s.slot_setSlot_other hj B

/-- What holds of every slot and of the new one holds of every slot afterwards. -/
theorem State.forall_slots_of_set {P : Slot → Prop} (h : ∀ C ∈ s.slots, P C) (hB : P B) : ∀ C ∈ t.slots, P C := by
  intro C hC
  rw [hslots] at hC
  rcases List.mem_or_eq_of_mem_set hC with hC | rfl
  · exact h C hC
  · exact hB

/-- A well-formed slot in place of another keeps the shape. -/
theorem State.Wf.of_set (h : s.Wf) (hB : B.Wf) (hparams : t.params = s.params) (hmem : t.mem = s.mem)
    (hfront : t.front < s.n) (hback : t.back < s.n) (hactive : t.active < s.n) : t.Wf := by
  have hn : t.n = s.n := by rw [State.n, hparams, State.n]
  refine ⟨hparams ▸ h.params, ?_, hn ▸ hfront, hn ▸ hback, hn ▸ hactive, State.forall_slots_of_set hslots h.slot hB,
    hmem ▸ h.mem, hmem ▸ h.wdata⟩
  rw [hslots, List.length_set, hn, h.slots]

/-- Replacing a slot that is not in flight by another such keeps the relation of `FSM` and `TMR`. -/
theorem State.Sequenced.of_set (h : s.Sequenced) (hi : i < s.slots.length) (hfsm : t.fsm = s.fsm)
    (htmr : t.tmr = s.tmr) (hactive : t.active = s.active) (hold : (s.slot i).life ≠ .sent) (hnew : B.life ≠ .sent) :
    t.Sequenced := by
  by_cases hai : s.active = i
  · have hA : t.activeSlot = B := by
      rw [State.activeSlot, hactive, hai, State.slot_of_set_same hslots hi]
    refine State.sequenced_of_quiet ?_ ?_ (hA ▸ hnew)
    · rw [htmr]; exact h.quiet (by rw [State.activeSlot, hai]; exact hold)
    · rw [hfsm, htmr]; exact h.timer
  · refine h.congr_slot hfsm htmr ?_
    rw [State.activeSlot, hactive, State.slot_of_set_other hslots hai, State.activeSlot]

end

/-! ### Operations on the active record -/

/-- `t` has the store of `s`, but for the record of the active transaction, which is `A`. -/
structure State.Rewrites (s t : State) (A : Slot) : Prop where
  params : t.params = s.params
  front : t.front = s.front
  back : t.back = s.back
  active : t.active = s.active
  mem : t.mem = s.mem
  slots : t.slots = s.slots.set s.active A

theorem State.Rewrites.activeSlot {A : Slot} (h : s.Rewrites t A) (hlt : s.active < s.slots.length) :
    t.activeSlot = A := by
  rw [State.activeSlot, h.active, State.slot_of_set_same h.slots hlt]

theorem State.Rewrites.length {A : Slot} (h : s.Rewrites t A) : t.slots.length = s.slots.length := by
  rw [h.slots, List.length_set]

theorem State.Rewrites.trans {A B : Slot} (hst : s.Rewrites t A) (htu : t.Rewrites u B) : s.Rewrites u B where
  params := htu.params.trans hst.params
  front := htu.front.trans hst.front
  back := htu.back.trans hst.back
  active := htu.active.trans hst.active
  mem := htu.mem.trans hst.mem
  slots := by rw [htu.slots, hst.slots, hst.active, List.set_set]

/-- A state with the same store rewrites nothing. -/
theorem State.rewrites_of_store (hlt : s.active < s.slots.length) (hstore : t.store = s.store) :
    s.Rewrites t s.activeSlot := by
  simp only [State.store, Prod.mk.injEq] at hstore
  obtain ⟨hparams, hfront, hback, hactive, hslots, hmem⟩ := hstore
  refine ⟨hparams, hfront, hback, hactive, hmem, ?_⟩
  rw [hslots, State.activeSlot, State.slot, List.getD_eq_getElem _ _ hlt, List.set_getElem_self]

/-- Rewriting the record of a live transaction that is queued or in flight keeps the invariant, if the new record is
sent or finished and the timer fits. -/
theorem State.Inv.of_rewrites {A : Slot} (h : s.Inv) (hr : s.Rewrites t A)
    (hlive : s.activeSlot.life = .sent ∨ s.activeSlot.life = .queued) (hA : A.life = .sent ∨ A.life = .finished)
    (hwf : A.Wf) (hrec : A.Record) (hseq : t.Sequenced) : t.Inv := by
  have hn : t.n = s.n := by rw [State.n, hr.params, State.n]
  have hf := h.wf.front
  have hb := h.wf.back
  have ha := h.wf.active
  have hwf' : t.Wf := h.wf.of_set hr.slots hwf hr.params hr.mem (hr.front ▸ hf) (hr.back ▸ hb) (hr.active ▸ ha)
  refine ⟨hwf', ?_, hseq, State.forall_slots_of_set hr.slots h.records hrec⟩
  have hshape := (State.ring_iff_shape hf hb ha).1 h.ring
  have hoff : s.activeOffset < s.n := s.place_lt _
  rw [State.activeSlot, ← State.ringLife_place hf ha] at hlive
  have hsize : t.size = s.size := by rw [State.size, hr.back, hr.front, hn, State.size]
  have hoffset : t.activeOffset = s.activeOffset := by
    rw [State.activeOffset, hr.active, hr.front, hn, State.activeOffset]
  rw [State.ring_iff_shape hwf'.front hwf'.back hwf'.active, hn, hsize, hoffset]
  exact (hshape.update_active hoff hlive hA).congr s.size_lt hoff fun j hj =>
    State.ringLife_of_set hf h.wf.slots ha hn hr.front hr.slots hj

end Sys2Proof.Machine
end

section
/-! SUPPORT. What anomalies, validation and a received byte do to the active record; transactions in flight. -/

namespace Sys2Proof.Machine

variable {s t u : State}

/-! ### Anomalies and validation rewrite the active record -/

theorem State.Rewrites.of_store {A : Slot} (h : s.Rewrites t A) (hstore : u.store = t.store) : s.Rewrites u A := by
  simp only [State.store, Prod.mk.injEq] at hstore
  obtain ⟨hparams, hfront, hback, hactive, hslots, hmem⟩ := hstore
  exact ⟨hparams.trans h.params, hfront.trans h.front, hback.trans h.back, hactive.trans h.active,
    hmem.trans h.mem, hslots.trans h.slots⟩

theorem State.Rewrites.of_store_left {A : Slot} (h : t.Rewrites u A) (hstore : t.store = s.store) : s.Rewrites u A := by
  simp only [State.store, Prod.mk.injEq] at hstore
  obtain ⟨hparams, hfront, hback, hactive, hslots, hmem⟩ := hstore
  exact ⟨h.params.trans hparams, h.front.trans hfront, h.back.trans hback, h.active.trans hactive,
    h.mem.trans hmem, by rw [h.slots, hslots, hactive]⟩

theorem State.rewrites_setActive (s : State) (A : Slot) : s.Rewrites (s.setActive A) A := ⟨rfl, rfl, rfl, rfl, rfl, rfl⟩

theorem State.rewrites_markFinished (s : State) : s.Rewrites s.markFinished (s.activeSlot.mark .finished) :=
  s.rewrites_setActive _

/-- `t` differs from `s` in the validity bits of the active record at most, as far as the store goes. -/
def State.FlagsActive (s t : State) : Prop := ∃ m, s.Rewrites t { s.activeSlot with validMask := m }

theorem State.FlagsActive.lt (h : s.FlagsActive t) (hlt : s.active < s.slots.length) :
    t.active < t.slots.length := by
  obtain ⟨m, hr⟩ := h
  rw [hr.active, hr.length]
  exact hlt

theorem State.FlagsActive.trans (hst : s.FlagsActive t) (htu : t.FlagsActive u) (hlt : s.active < s.slots.length) :
    s.FlagsActive u := by
  obtain ⟨m, hm⟩ := hst
  obtain ⟨k, hk⟩ := htu
  rw [hm.activeSlot hlt] at hk
  exact ⟨k, hm.trans hk⟩

theorem State.flagsActive_of_store (hlt : s.active < s.slots.length) (hstore : t.store = s.store) :
    s.FlagsActive t :=
  ⟨_, State.rewrites_of_store hlt hstore⟩

theorem State.flagsActive_invalidateIf (hlt : s.active < s.slots.length) (c : Bool) (a : Anomaly) :
    s.FlagsActive (s.invalidateIf c a) := by
  cases c with
  | false => exact State.flagsActive_of_store hlt rfl
  | true => exact ⟨_, (s.rewrites_setActive (s.activeSlot.flag a)).of_store rfl⟩

theorem State.flagsActive_rxFlags (hlt : s.active < s.slots.length) (e : BitVec 4) : s.FlagsActive (s.rxFlags e) := by
  have h1 := State.flagsActive_invalidateIf hlt (e.getLsbD 0) .noise
  have h2 := h1.trans (State.flagsActive_invalidateIf (h1.lt hlt) (e.getLsbD 1) .framing) hlt
  have h3 := h2.trans (State.flagsActive_invalidateIf (h2.lt hlt) (e.getLsbD 2) .parity) hlt
  exact h3.trans (State.flagsActive_invalidateIf (h3.lt hlt) (e.getLsbD 3) .receiverOverrun) hlt

theorem State.countException_store (s : State) : s.countException.store = s.store := by
  unfold State.countException
  split
  · cases exceptionCounter (s.activeSlot.rxByte 2) <;> rfl
  · rfl

/-- Validation sets validity bits and finishes the transaction (45_frame_parser.md R220). -/
theorem State.validate_rewrites (hlt : s.active < s.slots.length) :
    ∃ m, s.Rewrites s.validate { s.activeSlot with validMask := m, life := .finished } := by
  have haddr : s.FlagsActive s.checkAddress := State.flagsActive_invalidateIf hlt _ _
  have hcrc : s.FlagsActive s.checkAddress.checkCrc :=
    haddr.trans (State.flagsActive_invalidateIf (haddr.lt hlt) _ _) hlt
  obtain ⟨m, hm⟩ : s.FlagsActive s.checkAddress.checkCrc.countException :=
    hcrc.trans (State.flagsActive_of_store (hcrc.lt hlt) (State.countException_store _)) hlt
  have hfin := hm.trans (State.rewrites_markFinished _)
  rw [hm.activeSlot hlt] at hfin
  rw [State.validate]
  exact ⟨m, hfin⟩

/-- The end of a frame validates the transaction and arms the inter-frame delay (43_client_fsm_timer.md R167, R170). -/
theorem State.endOfFrame_rewrites (hlt : s.active < s.slots.length) :
    ∃ m, s.Rewrites s.endOfFrame { s.activeSlot with validMask := m, life := .finished } := by
  obtain ⟨m, hm⟩ := State.validate_rewrites (s := s.arm .interframe) hlt
  have hstore : s.endOfFrame.store = (s.arm .interframe).validate.store := by
    simp only [State.endOfFrame, State.store]
  exact ⟨m, (hm.of_store hstore).of_store_left rfl⟩

theorem State.endOfFrame_fsm (s : State) : s.endOfFrame.fsm = .idle := by rw [State.endOfFrame]

theorem State.endOfFrame_tmr (s : State) : s.endOfFrame.tmr = .interframe := by
  have htmr := congrArg State.tmr (s.arm .interframe).validate_frame
  simp only at htmr
  rw [State.endOfFrame, htmr, State.arm_tmr]

/-- An anomaly that ends the transaction (43_client_fsm_timer.md R169, R171). -/
theorem State.invalidate_markFinished_rewrites (hlt : s.active < s.slots.length) (a : Anomaly) :
    s.Rewrites (s.invalidate a).markFinished ((s.activeSlot.flag a).mark .finished) := by
  have hflag : s.Rewrites (s.invalidate a) (s.activeSlot.flag a) := (s.rewrites_setActive _).of_store rfl
  have hfin := hflag.trans (State.rewrites_markFinished _)
  rw [hflag.activeSlot hlt] at hfin
  exact hfin

theorem Slot.flag_validMask_ne_zero (A : Slot) (a : Anomaly) : (A.flag a).validMask ≠ 0 := by
  have hmask : a.mask ≠ 0 := by cases a <;> decide
  simp only [Slot.flag, BitVec.ofNat_eq_ofNat, ne_eq, BitVec.or_eq_zero_iff, not_and]
  exact fun _ => hmask

/-! ### A byte received -/

/-- `B` is the record `A` after a byte has arrived. -/
structure Slot.Receives (A B : Slot) : Prop where
  request : A.SameRequest B
  life : B.life = A.life
  received : 0 < B.rxCnt
  wf : B.Wf

/-- A byte is stored, or finds the buffer full and is dropped (41_transaction.md R124). -/
theorem State.pushRxByte_rewrites (hwf : s.activeSlot.Wf) (b : Byte) :
    ∃ A, s.Rewrites (s.pushRxByte b) A ∧ s.activeSlot.Receives A := by
  unfold State.pushRxByte
  split
  · rename_i hroom
    exact ⟨_, s.rewrites_setActive _, ⟨rfl, rfl⟩, rfl, Nat.succ_pos _, hwf.storeRx hroom b⟩
  · rename_i hfull
    refine ⟨_, (s.rewrites_setActive (s.activeSlot.flag .receiverOverrun)).of_store rfl, ⟨rfl, rfl⟩, rfl, ?_,
      hwf.setFlags _ _⟩
    exact Nat.lt_of_lt_of_le (by decide) (Nat.le_of_not_lt hfull)

/-- The byte and its error flags (43_client_fsm_timer.md R167). -/
theorem State.received_rewrites (hlt : s.active < s.slots.length) (hwf : s.activeSlot.Wf) (b : Byte) (e : BitVec 4) :
    ∃ A, s.Rewrites (((s.bump 0).pushRxByte b).rxFlags e) A ∧ s.activeSlot.Receives A := by
  obtain ⟨A, hr, hA⟩ := State.pushRxByte_rewrites (s := s.bump 0) hwf b
  have hA' := hr.activeSlot hlt
  obtain ⟨m, hm⟩ := State.flagsActive_rxFlags (s := (s.bump 0).pushRxByte b)
    (by rw [hr.active, hr.length]; exact hlt) e
  rw [hA'] at hm
  exact ⟨_, (hr.trans hm).of_store_left rfl,
    ⟨hA.request.tx, hA.request.txLen⟩, hA.life, hA.received, hA.wf.setFlags m _⟩

theorem State.received_fsm (s : State) (b : Byte) (e : BitVec 4) :
    (((s.bump 0).pushRxByte b).rxFlags e).fsm = s.fsm := by
  have hflags := congrArg State.fsm (((s.bump 0).pushRxByte b).rxFlags_frame e)
  have hpush := congrArg State.fsm ((s.bump 0).pushRxByte_frame b)
  exact hflags.trans hpush

/-! ### Transactions in flight -/

theorem State.Inv.activeSlot_mem (h : s.Inv) : s.activeSlot ∈ s.slots := s.mem_slots_of_lt h.wf.active_lt

/-- A transaction in flight goes on. -/
theorem State.Inv.of_goesOn {A : Slot} (h : s.Inv) (hr : s.Rewrites t A) (hsent : s.activeSlot.life = .sent)
    (hA : A.life = .sent) (hwf : A.Wf) (hreq : s.activeSlot.SameRequest A) (hseq : t.Sequenced) : t.Inv :=
  h.of_rewrites hr (.inl hsent) (.inl hA) hwf
    ((h.records _ h.activeSlot_mem).of_sent (by simp [hsent]) hreq hA) hseq

/-- A transaction in flight finishes: the terminal conditions (43_client_fsm_timer.md R176). -/
theorem State.Inv.of_finishes {A : Slot} (h : s.Inv) (hr : s.Rewrites t A) (hsent : s.activeSlot.life = .sent)
    (hA : A.life = .finished) (hwf : A.Wf) (hreq : s.activeSlot.SameRequest A)
    (hreason : 0 < A.rxCnt ∨ A.validMask ≠ 0 ∨ A.txByte 0 = 0) (htmr : t.tmr = .interframe)
    (hfsm : t.fsm = .idle ∨ t.fsm = .ignoring) : t.Inv := by
  refine h.of_rewrites hr (.inl hsent) (.inr hA) hwf
    ((h.records _ h.activeSlot_mem).of_done (by simp [hsent]) hreq (by rw [hA]; rfl) hreason)
    (State.sequenced_of_quiet (.inr htmr) ?_ ?_)
  · rcases hfsm with hf | hf <;> rw [hf, htmr] <;> rfl
  · rw [hr.activeSlot h.wf.active_lt, hA]
    simp

/-- The wait for a response or for the turnaround delay begins: nothing has been received. -/
theorem State.sequenced_of_wait (hfsm : t.fsm = .emission ∨ t.fsm = .reception)
    (htmr : t.tmr = t.activeSlot.waitTimer) (hsent : t.activeSlot.life = .sent)
    (hsilent : t.activeSlot.rxCnt = 0 ∧ t.activeSlot.validMask = 0) : t.Sequenced := by
  have hflight : t.inFlight = true := by rcases hfsm with hf | hf <;> simp [State.inFlight, hf]
  refine ⟨?_, fun _ => hsent, fun _ => hflight, ?_, ?_, fun _ => hsilent⟩
  · unfold Slot.waitTimer at htmr
    rcases hfsm with hf | hf <;> rw [hf, htmr] <;> split <;> rfl
  · unfold Slot.waitTimer at htmr
    intro hi
    rw [htmr] at hi
    split at hi <;> cases hi
  · unfold Slot.waitTimer at htmr
    intro hi
    rw [htmr] at hi
    split at hi
    · assumption
    · cases hi

end Sys2Proof.Machine
end

section
/-! SUPPORT. Every operation, every step and every run keeps the invariant of the engine; what the spec lists follows. -/

namespace Sys2Proof.Machine

variable {s t : State}

/-! ### Port events -/

/-- A byte received by the transaction in flight (43_client_fsm_timer.md R167). -/
theorem State.Inv.rxStored (h : s.Inv) (hfsm : s.fsm = .reception) (b : Byte) (e : BitVec 4) :
    (((s.bump 0).pushRxByte b).rxFlags e).afterRxByte.Inv := by
  have hlt := h.wf.active_lt
  have hsent : s.activeSlot.life = .sent := h.seq.sent (by simp [State.inFlight, hfsm])
  obtain ⟨A, hr, hA⟩ := State.received_rewrites hlt (h.wf.slot_wf _) b e
  have hfsm' := s.received_fsm b e
  generalize ((s.bump 0).pushRxByte b).rxFlags e = u at hr hfsm'
  have hactive := hr.activeSlot hlt
  unfold State.afterRxByte
  split
  · obtain ⟨m, hm⟩ := State.endOfFrame_rewrites (s := u) (by rw [hr.active, hr.length]; exact hlt)
    rw [hactive] at hm
    exact h.of_finishes (hr.trans hm) hsent rfl (hA.wf.setFlags _ _) ⟨hA.request.tx, hA.request.txLen⟩ (.inl hA.received)
      u.endOfFrame_tmr (.inl u.endOfFrame_fsm)
  · have hrec : (u.arm .interchar).fsm = .reception := hfsm'.trans hfsm
    have hlife : u.activeSlot.life = .sent := by rw [hactive, hA.life, hsent]
    refine h.of_goesOn (hr.of_store rfl) hsent (hA.life.trans hsent) hA.wf hA.request ?_
    refine ⟨by rw [hrec]; rfl, fun _ => hlife, fun _ => ?_, fun _ => ?_, ?_, ?_⟩
    · rw [State.inFlight, hrec]; rfl
    · exact hactive ▸ hA.received
    · simp
    · simp

/-- A byte handed to the driver (43_client_fsm_timer.md R166). -/
theorem State.Inv.txByte (h : s.Inv) (hfsm : s.fsm = .emission) (hleft : s.activeSlot.isFullySent = false) :
    (((s.setActive s.activeSlot.popTxByte).wireTx s.activeSlot.nextTxByte).bump 1).Inv := by
  have hsent : s.activeSlot.life = .sent := h.seq.sent (by simp [State.inFlight, hfsm])
  have hr : s.Rewrites (((s.setActive s.activeSlot.popTxByte).wireTx s.activeSlot.nextTxByte).bump 1)
      s.activeSlot.popTxByte := (s.rewrites_setActive _).of_store rfl
  have hpop := Slot.popTxByte_of_unsent hleft
  have hactive := (hr.activeSlot h.wf.active_lt).trans hpop
  exact h.of_goesOn hr hsent (by rw [hpop]; exact hsent) ((h.wf.slot_wf _).popTxByte hleft)
    ⟨by rw [hpop], by rw [hpop]⟩
    (h.seq.congr rfl rfl (by rw [hactive]) (by rw [hactive]) (by rw [hactive]) (by rw [hactive]; rfl))

/-- The line is turned round after the last byte (43_client_fsm_timer.md R166). -/
theorem State.Inv.txTurned (h : s.Inv) (hfsm : s.fsm = .emission) :
    State.Inv { ({ s with txEn := false }).arm s.activeSlot.waitTimer with fsm := .reception } := by
  have hsent : s.activeSlot.life = .sent := h.seq.sent (by simp [State.inFlight, hfsm])
  have hwaits : s.tmr = .response ∨ s.tmr = .turnaround := by
    have hfits := h.seq.timer
    rw [hfsm] at hfits
    simpa [timerFits] using hfits
  exact h.of_store rfl (State.sequenced_of_wait (.inr rfl) rfl hsent (h.seq.silent hwaits))

/-- The expiry of a transaction's timer ends it (43_client_fsm_timer.md R169 to R173). -/
theorem State.Inv.onExpiry (h : s.Inv) : s.onExpiry.Inv := by
  have hlt := h.wf.active_lt
  have hwf : s.activeSlot.Wf := h.wf.slot_wf _
  have hsent (hn : s.tmr ≠ .none) (hi : s.tmr ≠ .interframe) : s.activeSlot.life = .sent :=
    h.seq.sent (h.seq.inFlight_iff.2 ⟨hn, hi⟩)
  unfold State.onExpiry
  split
  · exact h
  · rename_i htmr
    exact h.of_finishes ((State.invalidate_markFinished_rewrites hlt _).of_store rfl)
      (hsent (by simp [htmr]) (by simp [htmr])) rfl (hwf.setFlags _ _) ⟨rfl, rfl⟩
      (.inr (.inl (s.activeSlot.flag_validMask_ne_zero _))) rfl (.inl rfl)
  · rename_i htmr
    have hs := hsent (by simp [htmr]) (by simp [htmr])
    split
    · exact h.of_finishes ((State.invalidate_markFinished_rewrites hlt _).of_store rfl) hs rfl
        (hwf.setFlags _ _) ⟨rfl, rfl⟩ (.inr (.inl (s.activeSlot.flag_validMask_ne_zero _))) rfl (.inr rfl)
    · obtain ⟨m, hm⟩ := State.endOfFrame_rewrites hlt
      exact h.of_finishes hm hs rfl (hwf.setFlags _ _) ⟨rfl, rfl⟩ (.inl (h.seq.interchar htmr))
        s.endOfFrame_tmr (.inl s.endOfFrame_fsm)
  · rename_i htmr
    exact h.of_finishes (s.rewrites_markFinished.of_store rfl) (hsent (by simp [htmr]) (by simp [htmr])) rfl
      (hwf.setFlags _ _) ⟨rfl, rfl⟩ (.inr (.inr (h.seq.turnaround htmr))) rfl (.inl rfl)
  · exact h

theorem State.tmr_of_gate (hgate : s.gate = true) : s.tmr = .none ∨ s.tmr = .interframe := by
  simp only [State.gate, Bool.or_eq_true, Bool.and_eq_true, beq_iff_eq] at hgate
  exact hgate.imp id And.left

/-- With no transaction in flight, none is at `ACTIVE` after the advance either. -/
theorem State.Inv.advance_not_sent (h : s.Inv) (hsent : s.activeSlot.life ≠ .sent) :
    s.advance.activeSlot.life ≠ .sent := by
  have hf := h.wf.front
  have ha := h.wf.active
  have hnew : s.advance.active < s.n := State.advanceFrom_lt _ _ ha
  have hshape := (State.ring_iff_shape hf h.wf.back ha).1 h.ring
  intro hs
  have hlife : s.ringLife (s.place s.advance.active) = .sent := by
    rw [State.ringLife_place hf hnew]; exact hs
  have hplace := hshape.sent_only_active (s.place_lt _) hlife
  rw [hplace] at hlife
  exact hsent ((State.ringLife_place hf ha).symm.trans hlife)

/-- The advance of `ACTIVE` with the gate open (42_message_queue.md R145). -/
theorem State.Inv.advance (h : s.Inv) (hgate : s.gate = true) : s.advance.Inv := by
  have hf := h.wf.front
  have hb := h.wf.back
  have ha := h.wf.active
  have hnew : s.advance.active < s.n := State.advanceFrom_lt _ _ ha
  have htmr := State.tmr_of_gate hgate
  have hsent : s.activeSlot.life ≠ .sent := fun hs => by
    have hflight := h.seq.inFlight_iff.1 (h.seq.only hs)
    rcases htmr with ht | ht
    · exact hflight.1 ht
    · exact hflight.2 ht
  have hshape := State.advance_ringShape hf hb ha ((State.ring_iff_shape hf hb ha).1 h.ring)
  exact ⟨⟨h.wf.params, h.wf.slots, hf, hb, hnew, h.wf.slot, h.wf.mem, h.wf.wdata⟩,
    (State.ring_iff_shape (s := s.advance) hf hb hnew).2 hshape,
    State.sequenced_of_quiet htmr h.seq.timer (h.advance_not_sent hsent), h.records⟩

/-- The claim of a queued transaction (43_client_fsm_timer.md R165). -/
theorem State.Inv.claimed (h : s.Inv) (hgate : s.gate = true) (hsend : s.sendable = true) :
    s.claim.startEmission.Inv := by
  have hu := h.advance hgate
  have hqueued : s.advance.activeSlot.life = .queued := by simpa [State.sendable] using hsend
  have hr : s.advance.Rewrites s.claim.startEmission (s.advance.activeSlot.mark .sent) :=
    (s.advance.rewrites_setActive _).of_store rfl
  have hactive := hr.activeSlot hu.wf.active_lt
  have hrec := hu.records _ hu.activeSlot_mem
  obtain ⟨-, hcnt, hmask⟩ := hrec.fresh hqueued
  refine hu.of_rewrites hr (.inr hqueued) (.inl rfl) ((hu.wf.slot_wf _).setFlags _ _)
    (hrec.of_sent (by simp [hqueued]) ⟨rfl, rfl⟩ rfl) (State.sequenced_of_wait (.inl rfl) rfl ?_ ?_)
  · rw [hactive]; rfl
  · rw [hactive]; exact ⟨hcnt, hmask⟩

/-- Nothing to send (43_client_fsm_timer.md R165). -/
theorem State.Inv.nothingToSend (h : s.Inv) (hgate : s.gate = true) :
    State.Inv { s.advance with tmr := .none, fsm := .idle } := by
  have hu := h.advance hgate
  refine hu.of_store rfl (State.sequenced_of_quiet (.inl rfl) rfl fun hs => ?_)
  have hflight := hu.seq.inFlight_iff.1 (hu.seq.only hs)
  rcases State.tmr_of_gate hgate with ht | ht
  · exact hflight.1 ht
  · exact hflight.2 ht

/-! ### Queue commands -/

/-- A request accepted into `SLOT[BACK]` keeps the ring (42_message_queue.md R144). -/
theorem State.Inv.accept_ring (h : s.Inv) (hfull : s.full = false) (r : Request) : (s.accept r).Ring := by
  have hf := h.wf.front
  have hb := h.wf.back
  have ha := h.wf.active
  have hshape := (State.ring_iff_shape hf hb ha).1 h.ring
  have hroom : s.size + 1 < s.n := by
    have := s.size_lt
    have : s.size ≠ s.n - 1 := by simpa [State.full] using hfull
    omega
  have hsize : (s.accept r).size = s.size + 1 := by
    have hplace := State.place_inc hf hb
    rw [← s.size_eq_place, if_neg hroom.ne] at hplace
    exact hplace
  rw [State.ring_iff_shape (s := s.accept r) hf (s.inc_lt _) ha, hsize]
  exact (hshape.load hroom).congr hroom (s.place_lt _) fun j hj =>
    State.ringLife_of_set (t := s.accept r) hf h.wf.slots hb rfl rfl rfl hj

/-- The slot at `BACK` is not in flight (10_state.md R39 (b)). -/
theorem State.Inv.back_not_sent (h : s.Inv) : (s.slot s.back).life ≠ .sent := by
  have hout := h.ring.outside s.size le_rfl s.size_lt
  rw [s.size_eq_place, State.ringLife_place h.wf.front h.wf.back] at hout
  rcases hout with ho | ho <;> simp [ho]

theorem State.Inv.accept (h : s.Inv) (hfull : s.full = false) {dev fc : Byte} {p : List Byte} {exp : Nat}
    {known : Bool} {r : Request} (hload : load dev fc p exp known = some r) : (s.accept r).Inv := by
  obtain ⟨hframe, hmin, hmax, hexp⟩ := load_bounds hload
  have hslots : (s.accept r).slots = s.slots.set s.back (((s.slot s.back).overwrite r).mark .queued) := rfl
  have hwf : (((s.slot s.back).overwrite r).mark .queued).Wf :=
    ((h.wf.slot_wf s.back).overwrite hmax hexp).setFlags _ _
  have hrec : (((s.slot s.back).overwrite r).mark .queued).Record :=
    Slot.record_overwrite _ hmin (hframe ▸ crcCheck_withCrc _)
  exact ⟨h.wf.of_set hslots hwf rfl rfl h.wf.front (s.inc_lt _) h.wf.active, h.accept_ring hfull r,
    h.seq.of_set hslots h.wf.back_lt rfl rfl rfl h.back_not_sent (by simp [Slot.mark]),
    State.forall_slots_of_set hslots h.records hrec⟩

/-- When `FRONT` moves on, every place counts one less, and the old front place is the last. -/
theorem State.place_of_front_inc (hf : s.front < s.n) (hn : t.n = s.n) (hfront : t.front = s.inc s.front) {i : Nat}
    (hi : i < s.n) : t.place i = if s.place i = 0 then s.n - 1 else s.place i - 1 := by
  have hfront' : t.front < t.n := by rw [hfront, hn]; exact s.inc_lt _
  rw [State.place_eq_ite hfront' (hn ▸ hi), State.place_eq_ite hf hi, hn, hfront, State.inc_eq_ite hf]
  split_ifs <;> omega

/-- The index of a place, once `FRONT` has moved on. -/
theorem State.index_of_front_inc (s : State) (j : Nat) : (s.inc s.front + j) % s.n = (s.front + (j + 1)) % s.n := by
  rw [State.inc, Nat.mod_add_mod, Nat.add_assoc, Nat.add_comm 1 j]

/-- A dequeue keeps the ring (42_message_queue.md R147). -/
theorem State.Inv.dequeueFront_ring (h : s.Inv) (hready : s.responseReady = true) : s.dequeueFront.Ring := by
  obtain ⟨hne, hfinished⟩ := s.responseReady_iff.1 hready
  have hf := h.wf.front
  have hb := h.wf.back
  have ha := h.wf.active
  have hfront := State.place_front hf
  have hshape := (State.ring_iff_shape hf hb ha).1 h.ring
  have hlive : s.size ≠ 0 := fun h0 => hne ((State.place_inj hf hf hb).1 (hfront.trans h0.symm))
  have hsize : s.dequeueFront.size = s.size - 1 := by
    have hplace := State.place_of_front_inc (t := s.dequeueFront) hf rfl rfl hb
    rw [← s.size_eq_place, if_neg hlive] at hplace
    exact hplace
  have hoffset : s.dequeueFront.activeOffset = if s.activeOffset = 0 then s.n - 1 else s.activeOffset - 1 :=
    State.place_of_front_inc (t := s.dequeueFront) hf rfl rfl ha
  have hslots : s.dequeueFront.slots = s.slots.set s.front ((s.slot s.front).mark .dequeued) := rfl
  have hlife (j : Nat) : s.dequeueFront.ringLife j = (s.dequeueFront.slot ((s.front + (j + 1)) % s.n)).life := by
    rw [← s.index_of_front_inc]; rfl
  rw [State.ring_iff_shape (s := s.dequeueFront) (s.inc_lt _) hb ha, hsize, hoffset]
  refine hshape.dequeue (Nat.pos_of_ne_zero hlive) s.size_lt ?_ ?_ fun j hj => ?_
  · rw [← hfront, State.ringLife_place hf hf, hfinished]
  · have hindex : (s.front + (s.n - 1 + 1)) % s.n = s.front := by
      rw [Nat.sub_add_cancel s.n_pos, Nat.add_mod_right, Nat.mod_eq_of_lt hf]
    rw [hlife, hindex, State.slot_of_set_same hslots h.wf.front_lt]
    rfl
  · have hother : (s.front + (j + 1)) % s.n ≠ s.front := fun hi => by
      have hplace := State.place_index hf hj
      rw [hi, hfront] at hplace
      omega
    rw [hlife, State.slot_of_set_other hslots hother]
    rfl

theorem State.Inv.dequeueFront (h : s.Inv) (hready : s.responseReady = true) : s.dequeueFront.Inv := by
  obtain ⟨-, hfinished⟩ := s.responseReady_iff.1 hready
  have hslots : s.dequeueFront.slots = s.slots.set s.front ((s.slot s.front).mark .dequeued) := rfl
  have hold := h.records _ (s.mem_slots_of_lt h.wf.front_lt)
  have hrec : ((s.slot s.front).mark .dequeued).Record :=
    hold.of_done (by simp [hfinished]) ⟨rfl, rfl⟩ rfl (hold.reason (by rw [hfinished]; rfl))
  exact ⟨h.wf.of_set hslots ((h.wf.slot_wf _).setFlags _ _) rfl rfl (s.inc_lt _) h.wf.back h.wf.active,
    h.dequeueFront_ring hready,
    h.seq.of_set hslots h.wf.front_lt rfl rfl rfl (by simp [hfinished]) (by simp [Slot.mark]),
    State.forall_slots_of_set hslots h.records hrec⟩

/-! ### Resets -/

/-- An empty queue of unused slots, with no transaction's timer running, meets the invariant. -/
theorem State.inv_of_unused (hwf : s.Wf) (hunused : ∀ A ∈ s.slots, A.life = .unused) (hfront : s.front = 0)
    (hback : s.back = 0) (hactive : s.active = 0) (htmr : s.tmr = .none ∨ s.tmr = .interframe)
    (hfits : timerFits s.fsm s.tmr = true) : s.Inv := by
  have hslot {i : Nat} (hi : i < s.n) : (s.slot i).life = .unused :=
    hunused _ (s.mem_slots_of_lt (hwf.slots ▸ hi))
  have hlife (j : Nat) : s.ringLife j = .unused := hslot (Nat.mod_lt _ s.n_pos)
  have hsize : s.size = 0 := by simp [State.size, hfront, hback]
  refine ⟨hwf, ⟨.inr (.inl ⟨hactive.trans hback.symm, ?_⟩), fun j _ _ => .inl (hlife j), fun i j _ _ _ hi => ?_⟩,
    State.sequenced_of_quiet htmr hfits ?_, fun A hA => Slot.record_of_unused (hunused A hA)⟩
  · rw [hsize]
    exact fun j hj => absurd hj (Nat.not_lt_zero j)
  · rw [hlife i] at hi
    cases hi
  · rw [State.activeSlot, hslot hwf.active]
    simp

/-- The power-on state (10_state.md R45). -/
theorem inv_resetWith {p : Params} (hp : p.wf = true) (time : Word) (inputs : List PortIn) :
    State.Inv { State.resetWith p time with inputs := inputs } := by
  have hblank (A : Slot) (hA : A ∈ List.replicate p.n Slot.blank) : A = Slot.blank := List.eq_of_mem_replicate hA
  have hpos : 0 < p.n := Nat.two_pow_pos _
  exact State.inv_of_unused
    ⟨hp, List.length_replicate, hpos, hpos, hpos, fun A hA => hblank A hA ▸ Slot.blank_wf, rfl, rfl⟩
    (fun A hA => hblank A hA ▸ rfl) rfl rfl rfl (.inl rfl) rfl

/-- Every slot of a store reset at once is unused and keeps its shape. -/
theorem State.Wf.map_reset (h : s.Wf) : ∀ A ∈ s.slots.map Slot.reset, A.Wf ∧ A.life = .unused := by
  intro A hA
  obtain ⟨B, hB, rfl⟩ := List.mem_map.1 hA
  exact ⟨(h.slot B hB).reset, rfl⟩

/-- `QUEUE_RESET` (46_control_ops.md R232). -/
theorem State.Inv.queueReset (h : s.Inv) : ({ s.clearQueue with txEn := false }.leave .idle).Inv := by
  have hslots := h.wf.map_reset
  have hpos := s.n_pos
  exact State.inv_of_unused
    ⟨h.wf.params, (List.length_map _).trans h.wf.slots, hpos, hpos, hpos, fun A hA => (hslots A hA).1, h.wf.mem,
      h.wf.wdata⟩
    (fun A hA => (hslots A hA).2) rfl rfl rfl (.inr rfl) rfl

/-- `RST` (70_reset_and_hazards.md R270). -/
theorem State.Inv.rst (h : s.Inv) {w : List Byte} {is : List PortIn} {r n : Nat} :
    State.Inv { State.resetWith s.params s.time with
      slots := s.slots.map Slot.reset, wire := w, inputs := is, resets := r, staleReads := n } := by
  have hslots := h.wf.map_reset
  have hpos := s.n_pos
  exact State.inv_of_unused
    ⟨h.wf.params, (List.length_map _).trans h.wf.slots, hpos, hpos, hpos, fun A hA => (hslots A hA).1, rfl, rfl⟩
    (fun A hA => (hslots A hA).2) rfl rfl rfl (.inl rfl) rfl

/-! ### Every operation, every step, every run -/

/-- A host write to `WDATA` keeps the memory in its canonical form (20_memory.md R63). -/
theorem State.Inv.setWdata (h : s.Inv) {k : Nat} (hk : k < Config.wdataCap) (v : Byte) : (s.setWdata k v).Inv := by
  obtain ⟨⟨hparams, hslots, hfront, hback, hactive, hslot, hmem, hwdata⟩, ⟨hp, ho, hd⟩, hseq, hrec⟩ := h
  exact ⟨⟨hparams, hslots, hfront, hback, hactive, hslot, Memory.wf_set hmem _ _, Memory.inWdata_set hwdata hk _⟩,
    ⟨hp, ho, hd⟩, hseq.congr_slot rfl rfl rfl, hrec⟩

/-- Every operation keeps the invariant (10_state.md R39, R46). -/
theorem Effect.keeps_inv {i : Instr} (heffect : Effect s i t) (h : s.Inv) : t.Inv := by
  induction heffect with
  | accepted _ hfull hr => exact h.accept hfull hr
  | dequeued hready => exact (h.dequeueFront hready).of_eq rfl rfl rfl
  | queueReset => exact h.queueReset.of_eq rfl rfl rfl
  | rxStored hfsm => exact h.rxStored hfsm _ _
  | txByte hfsm hleft => exact h.txByte hfsm hleft
  | txTurned hfsm => exact h.txTurned hfsm
  | expired => exact h.onExpiry
  | claimed hgate hsend => exact h.claimed hgate hsend
  | nothingToSend hgate => exact h.nothingToSend hgate
  | hwrCommand _ _ _ _ ih => exact ih
  | hwrDuration d => cases d <;> exact h.of_eq rfl rfl rfl
  | hwrWdata hk v => exact (h.setWdata hk v).of_eq rfl rfl rfl
  | rst => exact h.rst
  | rejected | countersCleared | crc | tick | rxIgnored | txIdle | notExpired | gateClosed | hrd | hwrIllegal | hwrArg
  | hwrRefused => exact h.of_eq rfl rfl rfl

/-- Every step keeps the invariant, whatever the inputs are. -/
theorem step_keeps_inv (h : s.Inv) (hstep : step s = .next t) : t.Inv := by
  have hfetch : s.fetch.Inv := by
    unfold State.fetch
    split
    · exact h.of_eq rfl rfl rfl
    · exact h
  unfold step at hstep
  split at hstep
  · have hconsumed : s.fetch.consumed.Inv := hfetch.of_eq rfl rfl rfl
    exact (effect_of_exec hstep).keeps_inv hconsumed
  · cases hstep
    exact hfetch

/-- What every step keeps, every run keeps. -/
theorem run_keeps {P : State → Prop} (hP : ∀ s t, P s → step s = .next t → P t) (k : Nat) :
    ∀ s t : State, P s → Host.Core.run Sys2Proof.core k s = .next t → P t := by
  induction k with
  | zero =>
    intro s t hs hrun
    cases hrun
    exact hs
  | succ k ih =>
    intro s t hs hrun
    simp only [Host.Core.run] at hrun
    split at hrun
    · rename_i u hu
      exact ih u t (hP s u hs hu) hrun
    · cases hrun
    · cases hrun

/-- Every state that any input sequence reaches meets the invariant. -/
theorem reachable_inv {p : Params} (hp : p.wf = true) {time : Word} {inputs : List PortIn} {k : Nat}
    (hrun : Host.Core.run Sys2Proof.core k ({ State.resetWith p time with inputs := inputs } : State) = .next s) :
    s.Inv :=
  run_keeps (fun _ _ => step_keeps_inv) k _ _ (inv_resetWith hp time inputs) hrun

/-! ### The invariants as the spec lists them -/

/-- (a) of R39: finished, then at most one sent, then queued. -/
theorem RingShape.sorted {n size off : Nat} {life : Nat → Life} (h : RingShape n size off life) :
    ∃ f g, f ≤ g ∧ g ≤ f + 1 ∧ g ≤ size ∧ (∀ j, j < f → life j = .finished) ∧
      (∀ j, f ≤ j → j < g → life j = .sent) ∧ ∀ j, g ≤ j → j < size → life j = .queued := by
  rcases h.position with ⟨hlive, hbefore, hlife, hafter⟩ | ⟨-, hfinished⟩ | ⟨-, -, hqueued⟩
  · rcases hlife with hl | hl | hl
    · refine ⟨off + 1, off + 1, le_rfl, by omega, hlive, fun j hj => ?_, fun j _ _ => by omega, fun j hj => hafter j hj⟩
      rcases Nat.lt_succ_iff_lt_or_eq.1 hj with hj | rfl
      · exact hbefore j hj
      · exact hl
    · refine ⟨off, off + 1, by omega, le_rfl, hlive, hbefore, fun j h1 h2 => ?_, fun j hj => hafter j hj⟩
      rwa [show j = off by omega]
    · refine ⟨off, off, le_rfl, by omega, hlive.le, hbefore, fun j _ _ => by omega, fun j hj hs => ?_⟩
      rcases hj.lt_or_eq with hj | rfl
      · exact hafter j hj hs
      · exact hl
  · exact ⟨size, size, le_rfl, by omega, le_rfl, hfinished, fun j _ _ => by omega, fun j _ _ => by omega⟩
  · exact ⟨0, 0, le_rfl, by omega, Nat.zero_le _, fun j hj => by omega, fun j _ _ => by omega, fun j _ => hqueued j⟩

/-- (c) of R39: only the slot at `ACTIVE` is in flight. -/
theorem State.Inv.sent_eq_active (h : s.Inv) {i : Nat} (hi : i < s.n) (hsent : (s.slot i).life = .sent) :
    i = s.active := by
  have hf := h.wf.front
  have ha := h.wf.active
  have hshape := (State.ring_iff_shape hf h.wf.back ha).1 h.ring
  rw [← State.ringLife_place hf hi] at hsent
  exact (State.place_inj hf hi ha).1 (hshape.sent_only_active (s.place_lt i) hsent)

/-- (d) of R39: where `ACTIVE` is. -/
theorem State.Inv.active_position (h : s.Inv) :
    s.activeOffset < s.size ∨ s.active = s.back ∨ (s.active + 1) % s.n = s.front := by
  rcases h.ring.position with ⟨hlive, -⟩ | ⟨hback, -⟩ | ⟨hlag, -⟩
  · exact .inl hlive
  · exact .inr (.inl hback)
  · have hf := h.wf.front
    have ha := h.wf.active
    have hnext := State.place_inc hf ha
    rw [← s.activeOffset_eq_place, if_pos (by have := s.n_pos; omega)] at hnext
    exact .inr (.inr ((State.place_inj hf (s.inc_lt _) hf).1 (hnext.trans (State.place_front hf).symm)))

/-- The six invariants of the store follow from the inductive one (10_state.md R39). -/
theorem State.Inv.storeInvariants (h : s.Inv) : s.StoreInvariants where
  a := ((State.ring_iff_shape h.wf.front h.wf.back h.wf.active).1 h.ring).sorted
  b := h.ring.outside
  c _ hi hsent := h.sent_eq_active hi hsent
  d := h.active_position
  e i hi := by
    have hwf := h.wf.slot_wf i
    exact ⟨hwf.txIdx_le, hwf.txLen_le.trans hwf.tx_le, hwf.rxCnt_le.trans hwf.rx_le,
      (h.records _ (s.mem_slots_of_lt (h.wf.slots ▸ hi))).loaded⟩
  f i hi hdone := (h.records _ (s.mem_slots_of_lt (h.wf.slots ▸ hi))).reason
    (by rcases hdone with hd | hd <;> rw [hd] <;> rfl)

/-- The relation of `FSM` and `TMR` is the table of fitting pairs (10_state.md R46). -/
theorem State.Sequenced.timerRelation (h : s.Sequenced) : s.TimerRelation := by
  have hfits := h.timer
  refine ⟨fun hf => ?_, fun hf => ?_, fun hf => ?_, fun hf => ?_, fun hf => ?_, fun ht => ?_, fun hf => h.sent ?_⟩
  · simpa [hf, timerFits] using hfits
  · simpa [hf, timerFits] using hfits
  · simpa [hf, timerFits, or_assoc] using hfits
  · simpa [hf, timerFits] using hfits
  · simpa [hf, timerFits] using hfits
  · cases hf : s.fsm <;> simp [hf, ht, timerFits] at hfits ⊢
  · rcases hf with hf | hf <;> simp [State.inFlight, hf]

/-- Settles O5: the inductive invariant holds at power-on and is kept by every step, and R39 follows from it. -/
theorem reachableStore : Obligations.ReachableStore :=
  fun _ _ _ _ _ hp hrun => (reachable_inv hp hrun).storeInvariants

/-- Settles O6: the inductive invariant holds at power-on and is kept by every step, and R46 follows from it. -/
theorem reachableTimer : Obligations.ReachableTimer :=
  fun _ _ _ _ _ hp hrun => (reachable_inv hp hrun).seq.timerRelation

end Sys2Proof.Machine
end

section
/-! SUPPORT. The address map of the bus as a bijection between the mapped addresses and the locations, and the mapped
and writable addresses in its terms (20_memory.md R61, R64, R69). -/

namespace Sys2Proof.Machine

/-! ### The address of each location -/

/-- The bus address of a location (20_memory.md R61, R69). -/
def Loc.addr : Loc → Nat
  | .cmd => 0x0000
  | .result => 0x0004
  | .arg k => 0x0008 + 4 * k.val
  | .status => 0x001C
  | .qstat => 0x0020
  | .time => 0x0024
  | .tmrStart => 0x0028
  | .dur .response => 0x0030
  | .dur .interchar => 0x0034
  | .dur .turnaround => 0x0038
  | .dur .interframe => 0x003C
  | .ctr k => 0x0040 + 4 * k.val
  | .wdata k => 0x0100 + k
  | .slotHdr0 i => 0x1000 + 0x400 * i
  | .slotHdr1 i => 0x1000 + 0x400 * i + 4
  | .slotHdr2 i => 0x1000 + 0x400 * i + 8
  | .slotTx i k => 0x1000 + 0x400 * i + 0x100 + k
  | .slotRx i k => 0x1000 + 0x400 * i + 0x200 + k

/-- An engine with `n` slots has the location. -/
def Loc.Mapped (n : Nat) : Loc → Prop
  | .cmd | .result | .arg _ | .status | .qstat | .time | .tmrStart | .dur _ | .ctr _ => True
  | .wdata k => k < 252
  | .slotHdr0 i | .slotHdr1 i | .slotHdr2 i => i < n
  | .slotTx i k | .slotRx i k => i < n ∧ k < 256

/-- The word registers below the counters, by rising address (20_memory.md R61). -/
def registers : List Loc :=
  [.cmd, .result, .arg 0, .arg 1, .arg 2, .arg 3, .arg 4, .status, .qstat, .time, .tmrStart,
    .dur .response, .dur .interchar, .dur .turnaround, .dur .interframe]

theorem registers_map_addr : registers.map Loc.addr =
    [0x00, 0x04, 0x08, 0x0C, 0x10, 0x14, 0x18, 0x1C, 0x20, 0x24, 0x28, 0x30, 0x34, 0x38, 0x3C] := rfl

theorem size_of_mem_registers {l : Loc} (h : l ∈ registers) : l.size = .word := by
  revert l; decide

theorem addr_of_mem_registers {l : Loc} (h : l ∈ registers) : l.addr < 0x40 := by
  revert l; decide

theorem locateRegister_of_mem {l : Loc} (h : l ∈ registers) : locateRegister l.addr = some l := by
  revert l; decide

theorem mapped_of_mem_registers (n : Nat) {l : Loc} (h : l ∈ registers) : l.Mapped n := by
  cases l with
  | cmd | result | arg | status | qstat | time | tmrStart | dur | ctr => trivial
  | wdata | slotHdr0 | slotHdr1 | slotHdr2 | slotTx | slotRx => simp [registers] at h

theorem arg_mem_registers (k : Fin 5) : .arg k ∈ registers := by revert k; decide

theorem dur_mem_registers (d : Duration) : .dur d ∈ registers := by cases d <;> decide

theorem locateRegister_of_not_mem {a : Nat} (h : a ∉ registers.map Loc.addr) : locateRegister a = none := by
  simp only [registers_map_addr, List.mem_cons, not_or] at h
  simp only [locateRegister, h, if_false]

theorem locateRegister_sound {a : Nat} {l : Loc} (h : locateRegister a = some l) : l ∈ registers ∧ l.addr = a := by
  by_cases ha : a ∈ registers.map Loc.addr
  · obtain ⟨l', hl', rfl⟩ := List.mem_map.1 ha
    obtain rfl : l' = l := Option.some.inj ((locateRegister_of_mem hl').symm.trans h)
    exact ⟨hl', rfl⟩
  · rw [locateRegister_of_not_mem ha] at h
    cases h

theorem locateWindow_sound {n i off : Nat} (hi : i < n) {l : Loc} (h : locateWindow i off = some l) :
    l.Mapped n ∧ l.addr = 0x1000 + 0x400 * i + off := by
  unfold locateWindow at h
  split_ifs at h <;> cases h
  · exact ⟨hi, by simp only [Loc.addr]; omega⟩
  · exact ⟨hi, by simp only [Loc.addr]; omega⟩
  · exact ⟨hi, by simp only [Loc.addr]; omega⟩
  · exact ⟨⟨hi, by omega⟩, by simp only [Loc.addr]; omega⟩
  · exact ⟨⟨hi, by omega⟩, by simp only [Loc.addr]; omega⟩

theorem locateWindow_tx (i : Nat) {k : Nat} (hk : k < 256) : locateWindow i (0x100 + k) = some (.slotTx i k) := by
  unfold locateWindow
  rw [if_neg (by omega), if_neg (by omega), if_neg (by omega), if_pos (by omega), Nat.add_sub_cancel_left]

theorem locateWindow_rx (i : Nat) {k : Nat} (hk : k < 256) : locateWindow i (0x200 + k) = some (.slotRx i k) := by
  unfold locateWindow
  rw [if_neg (by omega), if_neg (by omega), if_neg (by omega), if_neg (by omega), if_pos (by omega),
    Nat.add_sub_cancel_left]

/-- The location found at an address is mapped, and has that address. -/
theorem locate_sound {n : Nat} {addr : Word} {l : Loc} (h : locate n addr = some l) :
    l.Mapped n ∧ addr.toNat = l.addr := by
  simp only [locate] at h
  split_ifs at h
  · obtain ⟨hl, ha⟩ := locateRegister_sound h
    exact ⟨mapped_of_mem_registers n hl, ha.symm⟩
  · cases h
    exact ⟨trivial, by simp only [Loc.addr]; omega⟩
  · cases h
    simp only [Loc.Mapped, Loc.addr, wdataBase, Config.wdataCap] at *
    omega
  · obtain ⟨hl, ha⟩ := locateWindow_sound (n := n) (by omega) h
    exact ⟨hl, by omega⟩

theorem locate_register {addr : Word} {l : Loc} (n : Nat) (hl : l ∈ registers) (ha : addr.toNat = l.addr) :
    locate n addr = some l := by
  have hlt := addr_of_mem_registers hl
  simp only [locate, ha, if_pos hlt, locateRegister_of_mem hl]

/-- Slot `i` has the 0x400 addresses of its window (20_memory.md R69). -/
theorem locate_window {addr : Word} {n i off : Nat} (hi : i < n) (hoff : off < 0x400)
    (ha : addr.toNat = 0x1000 + 0x400 * i + off) : locate n addr = locateWindow i off := by
  have hdiv : (0x1000 + 0x400 * i + off - 0x1000) / 0x400 = i := by omega
  have hmod : (0x1000 + 0x400 * i + off - 0x1000) % 0x400 = off := by omega
  simp only [locate, ha, hdiv, hmod, wdataBase, Config.wdataCap]
  rw [if_neg (by omega), if_neg (by omega), if_neg (by omega), if_pos (by omega)]

/-- Every mapped location is found at its address. -/
theorem locate_complete {n : Nat} {addr : Word} {l : Loc} (hl : l.Mapped n) (ha : addr.toNat = l.addr) :
    locate n addr = some l := by
  cases l with
  | cmd | result | status | qstat | time | tmrStart => exact locate_register n (by decide) ha
  | arg k => exact locate_register n (arg_mem_registers k) ha
  | dur d => exact locate_register n (dur_mem_registers d) ha
  | ctr k =>
    have hk : (0x0040 + 4 * k.val - 0x0040) / 4 = k := by omega
    simp only [locate, ha, Loc.addr, hk]
    rw [if_neg (by omega), if_pos (by omega), dif_pos k.isLt, if_pos (by omega)]
  | wdata k =>
    have hk : k < 252 := hl
    simp only [locate, ha, Loc.addr, wdataBase, Config.wdataCap]
    rw [if_neg (by omega), if_neg (by omega), if_pos (by omega), Nat.add_sub_cancel_left]
  | slotHdr0 i => exact locate_window hl (off := 0) (by decide) ha
  | slotHdr1 i => exact locate_window hl (off := 4) (by decide) ha
  | slotHdr2 i => exact locate_window hl (off := 8) (by decide) ha
  | slotTx i k =>
    obtain ⟨hi, hk⟩ := hl
    rw [locate_window hi (off := 0x100 + k) (by omega) (ha.trans (Nat.add_assoc ..)), locateWindow_tx i hk]
  | slotRx i k =>
    obtain ⟨hi, hk⟩ := hl
    rw [locate_window hi (off := 0x200 + k) (by omega) (ha.trans (Nat.add_assoc ..)), locateWindow_rx i hk]

/-- The locations and the mapped addresses correspond one to one (20_memory.md R61, R69). -/
theorem locate_eq_some_iff (n : Nat) (addr : Word) (l : Loc) :
    locate n addr = some l ↔ l.Mapped n ∧ addr.toNat = l.addr :=
  ⟨locate_sound, fun ⟨hl, ha⟩ => locate_complete hl ha⟩

/-- An address below 4 GiB is itself as a bus word. -/
theorem toNat_ofNat_addr {a : Nat} (h : a < 2 ^ 32) : (BitVec.ofNat 32 a).toNat = a := by
  rw [BitVec.toNat_ofNat, Nat.mod_eq_of_lt h]

/-! ### Legality (20_memory.md R64) -/

/-- The word locations are the locations of word size. -/
theorem wordMapped_iff (n a : Nat) : wordMapped n a ↔ ∃ l : Loc, l.Mapped n ∧ a = l.addr ∧ l.size = .word := by
  constructor
  · rintro (h | ⟨k, hk, rfl⟩ | ⟨i, hi, rfl | rfl | rfl⟩)
    · rw [← registers_map_addr, List.mem_map] at h
      obtain ⟨l, hl, rfl⟩ := h
      exact ⟨l, mapped_of_mem_registers n hl, rfl, size_of_mem_registers hl⟩
    · exact ⟨.ctr ⟨k, hk⟩, trivial, rfl, rfl⟩
    · exact ⟨.slotHdr0 i, hi, rfl, rfl⟩
    · exact ⟨.slotHdr1 i, hi, rfl, rfl⟩
    · exact ⟨.slotHdr2 i, hi, rfl, rfl⟩
  · rintro ⟨l, hl, rfl, hsize⟩
    have hregister (h : l ∈ registers) : wordMapped n l.addr :=
      .inl (registers_map_addr ▸ List.mem_map_of_mem h)
    cases l with
    | cmd | result | status | qstat | time | tmrStart => exact hregister (by decide)
    | arg k => exact hregister (arg_mem_registers k)
    | dur d => exact hregister (dur_mem_registers d)
    | ctr k => exact .inr (.inl ⟨k, k.isLt, rfl⟩)
    | slotHdr0 i => exact .inr (.inr ⟨i, hl, .inl rfl⟩)
    | slotHdr1 i => exact .inr (.inr ⟨i, hl, .inr (.inl rfl)⟩)
    | slotHdr2 i => exact .inr (.inr ⟨i, hl, .inr (.inr rfl)⟩)
    | wdata | slotTx | slotRx => cases hsize

/-- The byte locations are the locations of byte size. -/
theorem byteMapped_iff (n a : Nat) : byteMapped n a ↔ ∃ l : Loc, l.Mapped n ∧ a = l.addr ∧ l.size = .byte := by
  constructor
  · rintro (⟨hlo, hhi⟩ | ⟨i, k, hi, hk, rfl | rfl⟩)
    · exact ⟨.wdata (a - 0x100), show a - 0x100 < 252 by omega, by simp only [Loc.addr]; omega, rfl⟩
    · exact ⟨.slotTx i k, ⟨hi, hk⟩, rfl, rfl⟩
    · exact ⟨.slotRx i k, ⟨hi, hk⟩, rfl, rfl⟩
  · rintro ⟨l, hl, rfl, hsize⟩
    cases l with
    | wdata k =>
      have hk : k < 252 := hl
      exact .inl (by simp only [Loc.addr]; omega)
    | slotTx i k => exact .inr ⟨i, k, hl.1, hl.2, .inl rfl⟩
    | slotRx i k => exact .inr ⟨i, k, hl.1, hl.2, .inr rfl⟩
    | cmd | result | arg | status | qstat | time | tmrStart | dur | ctr | slotHdr0 | slotHdr1 | slotHdr2 => cases hsize

theorem sizedMapped_iff (n a : Nat) (z : HSize) :
    sizedMapped n a z ↔ ∃ l : Loc, l.Mapped n ∧ a = l.addr ∧ l.size = z := by
  cases z with
  | word => exact wordMapped_iff n a
  | byte => exact byteMapped_iff n a

/-- An access finds a location exactly if its address is mapped and has the size of the access. -/
theorem State.sizedMapped_iff_access (s : State) (addr : Word) (size : HSize) :
    sizedMapped s.n addr.toNat size ↔ ∃ l, s.access addr size = some l := by
  simp only [sizedMapped_iff, State.access_eq_some_iff, locate_eq_some_iff, and_assoc]

/-- The writable addresses are those of the locations marked RW or WO. -/
theorem writeMapped_iff {n : Nat} {l : Loc} (hl : l.Mapped n) : writeMapped l.addr ↔ l.isWritable = true := by
  simp only [writeMapped, List.mem_cons, List.not_mem_nil, or_false]
  cases l with
  | cmd | result | status | qstat | time | tmrStart => decide
  | dur d => cases d <;> decide
  | arg k =>
    simp only [Loc.addr, Loc.isWritable, iff_true]
    omega
  | wdata k =>
    have hk : k < 252 := hl
    simp only [Loc.addr, Loc.isWritable, iff_true]
    omega
  | ctr | slotHdr0 | slotHdr1 | slotHdr2 | slotTx | slotRx =>
    simp only [Loc.addr, Loc.isWritable, Bool.false_eq_true, iff_false]
    omega

end Sys2Proof.Machine
end

section
/-! SUPPORT. Reads and writes of a location (20_memory.md R62 to R65): which accesses are legal and what they do. -/

namespace Sys2Proof.Machine

/-! ### Reads and writes of a location -/

theorem exec_hrd_of_access {s : State} {addr : Word} {size : HSize} {l : Loc} (h : s.access addr size = some l) :
    exec (.hrd addr size) s = .next (s.readOut l) := by
  change execHrd addr size s = _
  simp only [execHrd, h]

theorem exec_hrd_of_no_access {s : State} {addr : Word} {size : HSize} (h : s.access addr size = none) :
    exec (.hrd addr size) s = .next s.refuseRead := by
  change execHrd addr size s = _
  simp only [execHrd, h]

theorem exec_hwr_of_access {s : State} {addr : Word} {size : HSize} {l : Loc} (h : s.access addr size = some l)
    (v : Word) : exec (.hwr addr size v) s = writeLoc v s l := by
  change execHwr addr size v s = _
  simp only [execHwr, h]

theorem exec_hwr_of_no_access {s : State} {addr : Word} {size : HSize} (h : s.access addr size = none) (v : Word) :
    exec (.hwr addr size v) s = .next s.refuseWrite := by
  change execHwr addr size v s = _
  simp only [execHwr, h]

/-- A write at the address of a mapped location, with its size, writes that location (20_memory.md R63). -/
theorem exec_hwr_of_mapped {s : State} {addr : Word} {l : Loc} (hl : l.Mapped s.n) (ha : addr.toNat = l.addr)
    (v : Word) : exec (.hwr addr l.size v) s = writeLoc v s l :=
  exec_hwr_of_access ((s.access_eq_some_iff _ _ _).2 ⟨locate_complete hl ha, rfl⟩) v

@[simp] theorem State.readOut_herr (s : State) (l : Loc) : (s.readOut l).herr = false := by
  unfold State.readOut
  split <;> rfl

/-- A legal read changes the bus outputs, and the choice of the next free value, only (20_memory.md R62, R69). -/
theorem State.readOut_frame (s : State) (l : Loc) :
    { s.readOut l with hrdata := s.hrdata, herr := s.herr, staleReads := s.staleReads } = s := by
  unfold State.readOut
  split <;> rfl

theorem writeLoc_of_not_writable {l : Loc} (h : l.isWritable = false) (v : Word) (s : State) :
    writeLoc v s l = .next s.refuseWrite := by
  cases l with
  | result | status | qstat | time | tmrStart | ctr | slotHdr0 | slotHdr1 | slotHdr2 | slotTx | slotRx => rfl
  | cmd | arg | dur | wdata => cases h

theorem State.arg_setArg_same (s : State) (k : Fin 5) (v : Half) : (s.setArg k v).arg k = v := by
  simp [State.arg]

theorem State.arg_setArg_other (s : State) {k j : Fin 5} (h : j ≠ k) (v : Half) : (s.setArg k v).arg j = s.arg j := by
  have hval : (k : Nat) ≠ j := fun e => h (Fin.ext e.symm)
  simp [State.arg, hval]

/-- A command answers a next state, in every state. -/
theorem exec_command_completes {i : Instr} (hi : isCommand i = true) (s : State) : ∃ t, exec i s = .next t := by
  cases i with
  | readCoils | readDiscreteInputs | readHoldingRegisters | readInputRegisters | writeSingleCoil
  | writeSingleRegister | diagnostics | getCommEventCounter | writeMultipleCoils | writeMultipleRegisters
  | readWriteMultipleRegisters | enqRaw | queueReset | clearCounters => exact ⟨_, rfl⟩
  | dequeue =>
    change ∃ t, execDequeue s = .next t
    unfold execDequeue
    split <;> exact ⟨_, rfl⟩
  | crcGen =>
    change ∃ t, execCrcGen s = .next t
    unfold execCrcGen
    split <;> exact ⟨_, rfl⟩
  | crcChk =>
    change ∃ t, execCrcChk s = .next t
    unfold execCrcChk
    split <;> exact ⟨_, rfl⟩
  | tick | rxByte | txReady | runIn | runOut | hrd | hwr | rst => cases hi

/-- A command leaves `HERR` at 0, whatever its outcome (20_memory.md R63). -/
theorem Effect.herr_of_command {s t : State} {i : Instr} (h : Effect s i t) (hi : isCommand i = true) :
    t.herr = false := by
  cases h with
  | rejected | accepted | dequeued | queueReset | countersCleared | crc => rfl
  | tick | rxIgnored | rxStored | txByte | txTurned | txIdle | notExpired | expired | gateClosed | claimed
  | nothingToSend | hrd | hwrCommand | hwrIllegal | hwrArg | hwrDuration | hwrWdata | hwrRefused | rst => cases hi

theorem runCommandWord_clears_herr (w : Word) (s : State) : ∃ t, runCommandWord w s = .next t ∧ t.herr = false := by
  cases hop : decodeOpcode (wordOpcode w) with
  | none => exact ⟨s.rejectCommand .illegalOpcode, by simp only [runCommandWord, hop], rfl⟩
  | some op =>
    have hi := isCommand_toInstr op (wordDev w)
    obtain ⟨t, ht⟩ := exec_command_completes hi s
    exact ⟨t, by simp only [runCommandWord, hop, runOpcode_eq_exec, ht], (effect_of_exec ht).herr_of_command hi⟩

/-- A write to a writable location is legal, so `HERR` is 0 after it (20_memory.md R63). -/
theorem writeLoc_clears_herr {l : Loc} (h : l.isWritable = true) (v : Word) (s : State) :
    ∃ t, writeLoc v s l = .next t ∧ t.herr = false := by
  cases l with
  | cmd => exact runCommandWord_clears_herr v s
  | arg | dur | wdata => exact ⟨_, rfl, rfl⟩
  | result | status | qstat | time | tmrStart | ctr | slotHdr0 | slotHdr1 | slotHdr2 | slotTx | slotRx => cases h

/-! ### The statements -/

/-- Settles O40: an access either finds a location of its size or finds none, and a location is writable or not. -/
theorem legalAccess : Obligations.LegalAccess := by
  intro s a z
  simp only [s.sizedMapped_iff_access a z]
  cases hl : s.access a z with
  | none =>
    refine ⟨fun _ => exec_hrd_of_no_access hl, ?_, fun v _ => exec_hwr_of_no_access hl v, ?_⟩
    · rintro ⟨_, ⟨⟩⟩
    · rintro _ ⟨⟨_, ⟨⟩⟩, _⟩
  | some l =>
    obtain ⟨hmapped, ha⟩ := locate_sound ((s.access_eq_some_iff a z l).1 hl).1
    rw [ha, writeMapped_iff hmapped]
    refine ⟨fun h => absurd ⟨l, rfl⟩ h, fun _ => ?_, fun v h => ?_, fun v h => ?_⟩
    · exact ⟨_, exec_hrd_of_access hl, s.readOut_herr l, s.readOut_frame l⟩
    · rw [exec_hwr_of_access hl, writeLoc_of_not_writable (by simpa using h)]
      rfl
    · rw [exec_hwr_of_access hl]
      exact writeLoc_clears_herr h.2 v s

/-- Settles O41: each address is that of its location, and writing a location changes it alone. -/
theorem hostWrites : Obligations.HostWrites := by
  intro s v
  refine ⟨fun k => ?_, ?_, ?_, ?_, ?_, fun k hk => ?_, fun i hi => ?_⟩
  · have ha := toNat_ofNat_addr (a := 0x0008 + 4 * k) (by omega)
    refine ⟨_, exec_hwr_of_mapped (l := .arg k) trivial ha v, ?_, fun j hj => ?_, rfl, rfl⟩
    · exact (s.arg_setArg_same k _).trans (BitVec.setWidth_eq_extractLsb' (by decide))
    · exact s.arg_setArg_other hj _
  · exact exec_hwr_of_mapped (l := .dur .response) trivial rfl v
  · exact exec_hwr_of_mapped (l := .dur .interchar) trivial rfl v
  · exact exec_hwr_of_mapped (l := .dur .turnaround) trivial rfl v
  · exact exec_hwr_of_mapped (l := .dur .interframe) trivial rfl v
  · have ha := toNat_ofNat_addr (a := 0x0100 + k) (by omega)
    refine ⟨_, exec_hwr_of_mapped (l := .wdata k) hk ha v, ?_, fun j hj => ?_, rfl, rfl⟩
    · exact (s.wdataByte_setWdata_same k _).trans (BitVec.setWidth_eq_extractLsb' (by decide))
    · exact s.wdataByte_setWdata_other hj _
  · exact (exec_hwr_of_mapped (l := .cmd) trivial rfl v).trans (runCommandWord_of_decode hi s)

end Sys2Proof.Machine
end

section
/-! SUPPORT. The fields of a command word and the opcode map (30_encoding.md R81 to R83). -/

namespace Sys2Proof.Machine

/-! ### The fields of a command word -/

/-- The opcode stands in bits 7:0, whatever is above it (30_encoding.md R81). -/
@[simp] theorem wordOpcode_append (hi : Half) (dev op : Byte) : wordOpcode (hi ++ dev ++ op) = op :=
  BitVec.extractLsb'_append_eq_right

/-- `dev` stands in bits 15:8, whatever is in bits 31:16 (30_encoding.md R81). -/
@[simp] theorem wordDev_append (hi : Half) (dev op : Byte) : wordDev (hi ++ dev ++ op) = dev := by
  have hskip : wordDev (hi ++ dev ++ op) = (hi ++ dev).extractLsb' 0 8 :=
    BitVec.extractLsb'_append_eq_of_le (by decide)
  exact hskip.trans BitVec.extractLsb'_append_eq_right

/-! ### The decoder of command words -/

/-- Opcode and `dev` byte alone determine the command (30_encoding.md R83). -/
theorem decodeCommand_append {op : Byte} (o : Opcode) (hop : decodeOpcode op = some o) (hi : Half) (dev : Byte) :
    decodeCommand (hi ++ dev ++ op) = .ok (o.toInstr dev) := by
  simp only [decodeCommand, wordOpcode_append, wordDev_append, hop]

/-- A command word decodes exactly when its opcode is legal (30_encoding.md R83). -/
theorem decodeCommand_ok_iff (w : Word) : (∃ i, decodeCommand w = .ok i) ↔ wordOpcode w ∈ legalOpcodes := by
  cases hop : decodeOpcode (wordOpcode w) with
  | none =>
    have hillegal := (decodeOpcode_eq_none_iff _).1 hop
    simp [decodeCommand, hop, hillegal]
  | some o =>
    have hlegal : wordOpcode w ∈ legalOpcodes := by
      by_contra h
      simp [(decodeOpcode_eq_none_iff _).2 h] at hop
    simp [decodeCommand, hop, hlegal]

/-- Settles O17: a word decodes when its opcode is legal, and each legal opcode has its entry in the opcode map. -/
theorem opcodeMap : Obligations.OpcodeMap := by
  refine ⟨decodeCommand_ok_iff, fun hi dev => ?_⟩
  have hword {op : Byte} (o : Opcode) (hop : decodeOpcode op = some o) := decodeCommand_append o hop hi dev
  exact ⟨hword .readCoils rfl, hword .readDiscreteInputs rfl, hword .readHoldingRegisters rfl,
    hword .readInputRegisters rfl, hword .writeSingleCoil rfl, hword .writeSingleRegister rfl,
    hword .diagnostics rfl, hword .getCommEventCounter rfl, hword .writeMultipleCoils rfl,
    hword .writeMultipleRegisters rfl, hword .readWriteMultipleRegisters rfl, hword .enqRaw rfl,
    hword .dequeue rfl, hword .queueReset rfl, hword .clearCounters rfl, hword .crcGen rfl, hword .crcChk rfl⟩

end Sys2Proof.Machine
end


section
/-! SUPPORT. The CRC unit: eight shifts of a value made of two bytes, the table, the check on a string that ends with
two bytes, and the two CRC commands (40_crc16.md R111 to R119). -/

namespace Sys2Proof.Machine

/-! ### A 16-bit value and its two bytes -/

theorem ofLoHi_eq_append (lo hi : Byte) : ofLoHi lo hi = hi ++ lo := by
  have h := BitVec.setWidth_append_eq_shiftLeft_setWidth_or (b := hi) (b' := lo) (w'' := 16)
  rw [ofLoHi, BitVec.or_comm, ← h, BitVec.setWidth_eq]

theorem toNat_ofLoHi (lo hi : Byte) : (ofLoHi lo hi).toNat = lo.toNat + 256 * hi.toNat := by
  rw [ofLoHi_eq_append, BitVec.toNat_append, ← Nat.shiftLeft_add_eq_or_of_lt lo.isLt, Nat.shiftLeft_eq]
  omega

theorem ofLoHi_eq_xor (lo hi : Byte) : ofLoHi lo hi = lo.setWidth 16 ^^^ hi.setWidth 16 <<< 8 := by
  apply BitVec.eq_of_getLsbD_eq
  intro i hi
  by_cases h : i < 8
  · simp [ofLoHi, h]
  · simp [ofLoHi, h, BitVec.getLsbD_of_ge lo i (by omega)]

theorem setWidth_hiByte (v : Half) : (hiByte v).setWidth 16 = v >>> 8 := by
  apply BitVec.eq_of_toNat_eq
  simp [hiByte]
  omega

theorem setWidth_ushiftRight_eight (b : Byte) : b.setWidth 16 >>> 8 = 0#16 := by
  apply BitVec.eq_of_toNat_eq
  simp [Nat.shiftRight_eq_div_pow]
  omega

/-! ### Shift steps -/

/-- Shift steps over zero bits only move the rest down: the polynomial never enters. -/
theorem crcShifts_of_low_zero {n : Nat} {c : Half} (h : ∀ i < n, c.getLsbD i = false) : crcShifts n c = c >>> n := by
  induction n generalizing c with
  | zero => simp [crcShifts]
  | succ n ih =>
    have hshift : crcShift c = c >>> 1 := if_neg (by simp [h 0 (by omega), -BitVec.getLsbD_eq_getElem])
    have hrest : ∀ i < n, (c >>> 1).getLsbD i = false := fun i hi => by simp [h (1 + i) (by omega)]
    rw [crcShifts, hshift, ih hrest, ← BitVec.shiftRight_add, Nat.add_comm]

/-- Eight shift steps bring a high byte down into the low half unchanged. -/
theorem crcShifts_highByte (b : Byte) : crcShifts 8 (b.setWidth 16 <<< 8) = b.setWidth 16 := by
  rw [crcShifts_of_low_zero fun i hi => by simp [hi]]
  apply BitVec.eq_of_toNat_eq
  simp [Nat.shiftLeft_eq]
  omega

/-- The low byte of the register goes through the polynomial, the high byte is moved down. -/
theorem crcShifts_ofLoHi (lo hi : Byte) : crcShifts 8 (ofLoHi lo hi) = crcUpdate 0 lo ^^^ hi.setWidth 16 := by
  have hzero : (0 : Half) ^^^ lo.setWidth 16 = lo.setWidth 16 := BitVec.zero_xor
  rw [ofLoHi_eq_xor, crcShifts_xor, crcShifts_highByte, crcUpdate, hzero]

/-- Two updates are sixteen shift steps of the register with both bytes brought in at once. -/
theorem crcUpdate_crcUpdate (c : Half) (lo hi : Byte) :
    crcUpdate (crcUpdate c lo) hi = crcShifts 8 (crcShifts 8 (c ^^^ ofLoHi lo hi)) := by
  rw [ofLoHi_eq_xor, ← BitVec.xor_assoc, crcShifts_xor 8 (c ^^^ _), crcShifts_highByte]
  rfl

/-- The polynomial has bit 15 set, where a shifted value has 0, so a shift step loses nothing. -/
theorem crcShift_eq_zero_iff (c : Half) : crcShift c = 0 ↔ c = 0 := by
  refine ⟨fun h => ?_, fun h => by subst h; rfl⟩
  cases hbit : c.getLsbD 0 with
  | true =>
    rw [crcShift, if_pos hbit] at h
    have htop := congrArg (BitVec.getLsbD · 15) h
    simp at htop
  | false =>
    have hzero : c >>> 1 = 0 := by simpa [crcShift, hbit, -BitVec.getLsbD_eq_getElem] using h
    apply BitVec.eq_of_getLsbD_eq
    intro i _
    cases i with
    | zero => exact hbit
    | succ i => simpa [Nat.add_comm] using congrArg (BitVec.getLsbD · i) hzero

theorem crcShifts_eq_zero_iff (n : Nat) (c : Half) : crcShifts n c = 0 ↔ c = 0 := by
  induction n generalizing c with
  | zero => rfl
  | succ n ih => rw [crcShifts, ih, crcShift_eq_zero_iff]

/-! ### The table -/

/-- The printed table, all of it: entry `i` is the bit-serial update of 0 (40_crc16.md R112). -/
theorem crcTable_eq_map : crcTable = (List.range 256).map fun i => crcUpdate 0 (BitVec.ofNat 8 i) := by decide +kernel

theorem length_crcTable : crcTable.length = 256 := by simp [crcTable_eq_map]

theorem crcTable_getD (i : Byte) : crcTable.getD i.toNat 0 = crcUpdate 0 i := by
  rw [crcTable_eq_map]
  simp [List.getD, i.isLt]

/-- Settles O33: of the register, the low byte goes through the table and the high byte is shifted down. -/
theorem tableDrivenCrc : Obligations.TableDrivenCrc := by
  refine ⟨length_crcTable, crcTable_getD, fun c b => ?_⟩
  have hhi : (hiByte (c ^^^ b.setWidth 16)).setWidth 16 = c >>> 8 := by
    rw [setWidth_hiByte, BitVec.ushiftRight_xor_distrib, setWidth_ushiftRight_eight, BitVec.xor_zero]
  calc crcUpdateT c b
    _ = c >>> 8 ^^^ crcUpdate 0 (loByte (c ^^^ b.setWidth 16)) := congrArg _ (crcTable_getD _)
    _ = crcShifts 8 (ofLoHi (loByte (c ^^^ b.setWidth 16)) (hiByte (c ^^^ b.setWidth 16))) := by
      rw [crcShifts_ofLoHi, hhi, BitVec.xor_comm]
    _ = crcUpdate c b := by rw [ofLoHi_bytes, crcUpdate]

/-! ### The check -/

theorem crcCheck_append_pair (s : List Byte) (lo hi : Byte) :
    crcCheck (s ++ [lo, hi]) = true ↔ crcGenerate s = ofLoHi lo hi := by
  simp [crcCheck, trailingCrc]

/-- Settles O34: the check on a string that ends with two bytes compares the CRC of the rest with them. -/
theorem crcRoundTrip : Obligations.CrcRoundTrip :=
  ⟨fun _ => crcCheck_of_short,
    fun s lo hi => by rw [crcCheck_append_pair, ← BitVec.toNat_inj, toNat_ofLoHi],
    crcCheck_withCrc⟩

theorem exists_append_pair {s : List Byte} (h : 2 ≤ s.length) : ∃ p lo hi, s = p ++ [lo, hi] := by
  obtain ⟨lo, hi, htail⟩ := List.length_eq_two.1 (show (s.drop (s.length - 2)).length = 2 by simp; omega)
  exact ⟨s.take (s.length - 2), lo, hi, by rw [← htail, List.take_append_drop]⟩

/-- Settles O35: the CRC over the last two bytes is sixteen shift steps of their difference from the CRC before them,
and shift steps answer 0 for 0 only. -/
theorem crcResidue : Obligations.CrcResidue := by
  intro s hs
  obtain ⟨p, lo, hi, rfl⟩ := exists_append_pair hs
  calc crcCheck (p ++ [lo, hi]) = true
    _ ↔ crcGenerate p ^^^ ofLoHi lo hi = 0 := by rw [crcCheck_append_pair, ← BitVec.xor_eq_zero_iff]; rfl
    _ ↔ crcShifts 8 (crcShifts 8 (crcGenerate p ^^^ ofLoHi lo hi)) = 0 := by simp only [crcShifts_eq_zero_iff]
    _ ↔ crcGenerate (p ++ [lo, hi]) = 0 := by rw [crcGenerate_append, ← crcUpdate_crcUpdate]; rfl

/-! ### The commands -/

/-- `VALUE` stands in bits 31:16 and bit 0 is set (30_encoding.md R84). -/
theorem resultOk_eq_or (v : Half) : resultOk v = v.setWidth 32 <<< 16 ||| 1 := by
  have h := BitVec.setWidth_append_eq_shiftLeft_setWidth_or (b := v) (b' := 1#16) (w'' := 32)
  rw [resultOk, ← BitVec.setWidth_eq (v ++ 1#16), h]
  rfl

theorem exec_crcGen_of_le {s : State} (h : (s.arg 1).toNat ≤ 252) :
    exec .crcGen s = .next (s.commandDone (resultOk (crcGenerate (s.wdataPrefix (s.arg 1).toNat)))) :=
  if_neg h.not_gt

theorem exec_crcChk_of_le {s : State} (h : (s.arg 1).toNat ≤ 252) :
    exec .crcChk s =
      .next (s.commandDone (resultOk (if crcCheck (s.wdataPrefix (s.arg 1).toNat) then 1 else 0))) :=
  if_neg h.not_gt

/-- Settles O32: a length above 252 rejects both commands, and else each writes its result. -/
theorem crcCommands : Obligations.CrcCommands := by
  intro s
  refine ⟨fun h => ?_, fun h => ⟨?_, fun hc => ?_, fun hc => ?_⟩⟩
  · exact ⟨_, _, if_pos h, s.rejected_rejectCommand .bounds, if_pos h, s.rejected_rejectCommand .bounds⟩
  · rw [exec_crcGen_of_le h, resultOk_eq_or]; rfl
  · rw [exec_crcChk_of_le h, State.wdataPrefix, hc]; rfl
  · rw [exec_crcChk_of_le h, State.wdataPrefix, hc]; rfl

end Sys2Proof.Machine
end

section
/-! SUPPORT. The life of a transaction (41_transaction.md): its lifecycle state, its request and its validity bits under
every operation; raising an anomaly. -/

namespace Sys2Proof.Machine

variable {s t u : State} {i : Instr}

/-! ### The lifecycle state -/

/-- The moves operation `i` may make with the lifecycle state of `SLOT[k]` in state `s` (41_transaction.md R133). -/
inductive LifeMove (s : State) (i : Instr) (k : Nat) : Life → Life → Prop
  | stays (l : Life) : LifeMove s i k l l
  | resets (l : Life) (hi : i = .queueReset ∨ i = .rst) : LifeMove s i k l .unused
  | loads {l : Life} (hl : l = .unused ∨ l = .dequeued) (hi : isEnqueue i = true) (hk : k = s.back) :
      LifeMove s i k l .queued
  | claims (hi : i = .runOut) : LifeMove s i k .queued .sent
  | finishes (hi : i = .runIn ∨ ∃ b e, i = .rxByte b e) : LifeMove s i k .sent .finished
  | dequeues (hi : i = .dequeue) (hk : k = s.front) : LifeMove s i k .finished .dequeued

/-- Replacing one slot moves that slot's lifecycle state alone. -/
theorem lifeMove_of_set {j : Nat} {B : Slot} (hslots : t.slots = s.slots.set j B) (hj : j < s.slots.length)
    (hmove : LifeMove s i j (s.slot j).life B.life) (k : Nat) : LifeMove s i k (s.slot k).life (t.slot k).life := by
  by_cases hk : k = j
  · subst hk
    rwa [State.slot_of_set_same hslots hj]
  · rw [State.slot_of_set_other hslots hk]
    exact .stays _

/-- Every slot of a store reset at once is unused, and so is every slot outside the store. -/
theorem State.life_of_map_reset (hslots : t.slots = s.slots.map Slot.reset) (k : Nat) :
    (t.slot k).life = .unused := by
  rcases Nat.lt_or_ge k t.slots.length with hk | hk
  · have hmem := t.mem_slots_of_lt hk
    rw [hslots] at hmem
    obtain ⟨A, -, hA⟩ := List.mem_map.1 hmem
    rw [← hA, Slot.reset]
  · rw [t.slot_of_le hk, Slot.blank]

theorem lifeMove_of_map_reset (hi : i = .queueReset ∨ i = .rst) (hslots : t.slots = s.slots.map Slot.reset)
    (k : Nat) : LifeMove s i k (s.slot k).life (t.slot k).life := by
  rw [State.life_of_map_reset hslots k]
  exact .resets _ hi

/-- The slot at `BACK` is free (10_state.md R39 (b)). -/
theorem State.Inv.back_free (h : s.Inv) : (s.slot s.back).life = .unused ∨ (s.slot s.back).life = .dequeued := by
  have hout := h.ring.outside s.size le_rfl s.size_lt
  rwa [s.size_eq_place, State.ringLife_place h.wf.front h.wf.back] at hout

/-- After a stored byte the transaction is finished, or it goes on (43_client_fsm_timer.md R167). -/
theorem State.afterRxByte_rewrites (hlt : s.active < s.slots.length) :
    ∃ A, s.Rewrites s.afterRxByte A ∧ (A.life = .finished ∨ A = s.activeSlot) := by
  unfold State.afterRxByte
  split
  · obtain ⟨m, hm⟩ := State.endOfFrame_rewrites hlt
    exact ⟨_, hm, .inl rfl⟩
  · exact ⟨_, State.rewrites_of_store hlt rfl, .inr rfl⟩

/-- A received byte may finish the transaction in flight and makes no other move. -/
theorem State.Inv.lifeMove_rxStored (h : s.Inv) (hfsm : s.fsm = .reception) (b : Byte) (e : BitVec 4) (k : Nat) :
    LifeMove s (.rxByte b e) k (s.slot k).life ((((s.bump 0).pushRxByte b).rxFlags e).afterRxByte.slot k).life := by
  have hlt := h.wf.active_lt
  have hsent : (s.slot s.active).life = .sent := h.seq.sent (by simp [State.inFlight, hfsm])
  obtain ⟨A, hr, hA⟩ := State.received_rewrites hlt (h.wf.slot_wf _) b e
  obtain ⟨B, hr', hB⟩ := State.afterRxByte_rewrites (s := ((s.bump 0).pushRxByte b).rxFlags e)
    (by rw [hr.active, hr.length]; exact hlt)
  refine lifeMove_of_set (hr.trans hr').slots hlt ?_ k
  rcases hB with hB | hB
  · rw [hsent, hB]
    exact .finishes (.inr ⟨b, e, rfl⟩)
  · rw [hB, hr.activeSlot hlt, hA.life]
    exact .stays _

/-- With no transaction's timer running, an expiry changes nothing (43_client_fsm_timer.md R173). -/
theorem State.onExpiry_of_quiet (htmr : s.tmr = .none ∨ s.tmr = .interframe) : s.onExpiry = s := by
  rcases htmr with ht | ht <;> simp [State.onExpiry, ht]

/-- The expiry of a transaction's timer finishes the transaction (43_client_fsm_timer.md R169 to R172). -/
theorem State.onExpiry_finishes (hlt : s.active < s.slots.length) (hn : s.tmr ≠ .none) (hi : s.tmr ≠ .interframe) :
    ∃ A, s.Rewrites s.onExpiry A ∧ A.life = .finished := by
  unfold State.onExpiry
  split
  · exact absurd ‹_› hn
  · exact ⟨_, (State.invalidate_markFinished_rewrites hlt _).of_store rfl, rfl⟩
  · split
    · exact ⟨_, (State.invalidate_markFinished_rewrites hlt _).of_store rfl, rfl⟩
    · obtain ⟨m, hm⟩ := State.endOfFrame_rewrites hlt
      exact ⟨_, hm, rfl⟩
  · exact ⟨_, s.rewrites_markFinished.of_store rfl, rfl⟩
  · exact absurd ‹_› hi

theorem State.Inv.lifeMove_onExpiry (h : s.Inv) (k : Nat) :
    LifeMove s .runIn k (s.slot k).life (s.onExpiry.slot k).life := by
  by_cases htmr : s.tmr = .none ∨ s.tmr = .interframe
  · rw [State.onExpiry_of_quiet htmr]
    exact .stays _
  · obtain ⟨hn, hi⟩ := not_or.1 htmr
    have hsent : (s.slot s.active).life = .sent := h.seq.sent (h.seq.inFlight_iff.2 ⟨hn, hi⟩)
    obtain ⟨A, hr, hA⟩ := State.onExpiry_finishes h.wf.active_lt hn hi
    refine lifeMove_of_set hr.slots h.wf.active_lt ?_ k
    rw [hsent, hA]
    exact .finishes (.inl rfl)

/-- The claim sends the queued transaction at which `ACTIVE` comes to rest (42_message_queue.md R145). -/
theorem State.Inv.lifeMove_claim (h : s.Inv) (hsend : s.sendable = true) (k : Nat) :
    LifeMove s .runOut k (s.slot k).life (s.claim.startEmission.slot k).life := by
  have hslots : s.claim.startEmission.slots = s.slots.set s.advance.active (s.advance.activeSlot.mark .sent) := rfl
  have hlt : s.advance.active < s.n := State.advanceFrom_lt _ _ h.wf.active
  have hqueued : (s.slot s.advance.active).life = .queued := beq_iff_eq.1 hsend
  refine lifeMove_of_set hslots (h.wf.slots ▸ hlt) ?_ k
  rw [hqueued]
  exact .claims rfl

theorem State.Inv.lifeMove_dequeueFront (h : s.Inv) (hready : s.responseReady = true) (k : Nat) :
    LifeMove s .dequeue k (s.slot k).life (s.dequeueFront.slot k).life := by
  have hslots : s.dequeueFront.slots = s.slots.set s.front ((s.slot s.front).mark .dequeued) := rfl
  obtain ⟨-, hfinished⟩ := s.responseReady_iff.1 hready
  refine lifeMove_of_set hslots h.wf.front_lt ?_ k
  rw [hfinished]
  exact .dequeues rfl rfl

/-- Every operation makes only the moves that are its own (41_transaction.md R133). -/
theorem Effect.lifeMove (heffect : Effect s i t) (h : s.Inv) (hwf : i.wf = true) (k : Nat) :
    LifeMove s i k (s.slot k).life (t.slot k).life := by
  cases heffect with
  | @accepted _ _ _ _ _ _ r hi =>
    have hslots : (s.accept r).slots = s.slots.set s.back (((s.slot s.back).overwrite r).mark .queued) := rfl
    exact lifeMove_of_set hslots h.wf.back_lt (.loads h.back_free hi rfl) k
  | dequeued hready => exact h.lifeMove_dequeueFront hready k
  | queueReset => exact lifeMove_of_map_reset (.inl rfl) rfl k
  | rst => exact lifeMove_of_map_reset (.inr rfl) rfl k
  | rxStored hfsm => exact h.lifeMove_rxStored hfsm _ _ k
  | txByte _ hleft =>
    refine lifeMove_of_set (B := s.activeSlot.popTxByte) rfl h.wf.active_lt ?_ k
    rw [Slot.popTxByte_of_unsent hleft]
    exact .stays _
  | expired => exact h.lifeMove_onExpiry k
  | claimed _ hsend => exact h.lifeMove_claim hsend k
  | hwrCommand haddr hsize hop => exact absurd hwf (by simp [wf_hwr_command haddr hsize hop])
  | hwrDuration d => cases d <;> exact .stays _
  | rejected | countersCleared | crc | tick | rxIgnored | txTurned | txIdle | notExpired | gateClosed | nothingToSend
  | hrd | hwrIllegal | hwrArg | hwrWdata | hwrRefused => exact .stays _

/-- Settles O13: each outcome of an operation resets the store, replaces one slot, or leaves all slots alone, and the
invariant says in which lifecycle state the replaced slot was. -/
theorem lifecycleProgress : Obligations.LifecycleProgress := by
  intro i s t k hinv hwf hexec
  have hmove := (effect_of_exec hexec).lifeMove hinv hwf k
  generalize (s.slot k).life = old at hmove ⊢
  generalize (t.slot k).life = new at hmove ⊢
  cases hmove with
  | stays => exact .inl rfl
  | resets _ hi => exact .inr (.inl ⟨rfl, hi⟩)
  | loads hl hi hk => exact .inr (.inr (.inl ⟨hl, rfl, hi, hk⟩))
  | claims hi => exact .inr (.inr (.inr (.inl ⟨rfl, rfl, hi⟩)))
  | finishes hi => exact .inr (.inr (.inr (.inr (.inl ⟨rfl, rfl, hi⟩))))
  | dequeues hi hk => exact .inr (.inr (.inr (.inr (.inr ⟨rfl, rfl, hi, hk⟩))))

/-! ### The request and the validity bits -/

/-- `B` is the transaction `A` later in its life: its request is the same, and no validity bit has been cleared
(41_transaction.md R134, R135). -/
structure Slot.Continues (A B : Slot) : Prop where
  request : A.SameRequest B
  mask : ∀ b, A.validMask.getLsbD b = true → B.validMask.getLsbD b = true

/-- A record that differs in neither request nor validity bits is the same transaction. -/
theorem Slot.continues_of_eq {A B : Slot} (htx : B.tx = A.tx) (hlen : B.txLen = A.txLen)
    (hmask : B.validMask = A.validMask) : A.Continues B :=
  ⟨⟨htx, hlen⟩, fun b hb => by rwa [hmask]⟩

theorem Slot.Continues.trans {A B C : Slot} (hAB : A.Continues B) (hBC : B.Continues C) : A.Continues C :=
  ⟨⟨hBC.request.tx.trans hAB.request.tx, hBC.request.txLen.trans hAB.request.txLen⟩,
    fun b hb => hBC.mask b (hAB.mask b hb)⟩

/-- An anomaly only adds a validity bit (41_transaction.md R129). -/
theorem Slot.continues_flag (A : Slot) (a : Anomaly) : A.Continues (A.flag a) :=
  ⟨⟨rfl, rfl⟩, fun b hb => by simp only [Slot.flag, BitVec.getLsbD_or, hb, Bool.true_or]⟩

theorem Slot.continues_popTxByte (A : Slot) : A.Continues A.popTxByte := by
  unfold Slot.popTxByte
  split <;> exact Slot.continues_of_eq rfl rfl rfl

/-- Every slot of `t` holds the transaction that it holds in `s`. -/
def State.KeepsSlots (s t : State) : Prop := ∀ k, (s.slot k).Continues (t.slot k)

theorem State.keepsSlots_of_eq (hslots : t.slots = s.slots) : s.KeepsSlots t := fun k => by
  rw [State.slot, State.slot, hslots]
  exact Slot.continues_of_eq rfl rfl rfl

theorem State.keepsSlots_of_store (hstore : t.store = s.store) : s.KeepsSlots t := by
  simp only [State.store, Prod.mk.injEq] at hstore
  obtain ⟨-, -, -, -, hslots, -⟩ := hstore
  exact State.keepsSlots_of_eq hslots

theorem State.KeepsSlots.trans (hst : s.KeepsSlots t) (htu : t.KeepsSlots u) : s.KeepsSlots u :=
  fun k => (hst k).trans (htu k)

/-- Going on with one slot keeps all of them; a write beyond the store is lost. -/
theorem State.keepsSlots_of_set {j : Nat} {B : Slot} (hslots : t.slots = s.slots.set j B)
    (hB : (s.slot j).Continues B) : s.KeepsSlots t := by
  rcases Nat.lt_or_ge j s.slots.length with hj | hj
  · intro k
    by_cases hk : k = j
    · subst hk
      rwa [State.slot_of_set_same hslots hj]
    · rw [State.slot_of_set_other hslots hk]
      exact Slot.continues_of_eq rfl rfl rfl
  · exact State.keepsSlots_of_eq (hslots.trans (List.set_eq_of_length_le hj))

theorem State.keepsSlots_invalidate (s : State) (a : Anomaly) : s.KeepsSlots (s.invalidate a) :=
  State.keepsSlots_of_set rfl (s.activeSlot.continues_flag a)

theorem State.keepsSlots_invalidateIf (s : State) (c : Bool) (a : Anomaly) : s.KeepsSlots (s.invalidateIf c a) := by
  cases c with
  | false => exact State.keepsSlots_of_eq rfl
  | true => exact s.keepsSlots_invalidate a

theorem State.keepsSlots_markFinished (s : State) : s.KeepsSlots s.markFinished :=
  State.keepsSlots_of_set rfl (Slot.continues_of_eq (B := s.activeSlot.mark .finished) rfl rfl rfl)

theorem State.keepsSlots_rxFlags (s : State) (e : BitVec 4) : s.KeepsSlots (s.rxFlags e) :=
  (((s.keepsSlots_invalidateIf _ _).trans (State.keepsSlots_invalidateIf _ _ _)).trans
    (State.keepsSlots_invalidateIf _ _ _)).trans (State.keepsSlots_invalidateIf _ _ _)

/-- A received byte touches the receive buffer, or is dropped and leaves an anomaly (41_transaction.md R124). -/
theorem State.keepsSlots_pushRxByte (s : State) (b : Byte) : s.KeepsSlots (s.pushRxByte b) := by
  unfold State.pushRxByte
  split
  · exact State.keepsSlots_of_set rfl (Slot.continues_of_eq (B := s.activeSlot.storeRx b) rfl rfl rfl)
  · exact s.keepsSlots_invalidate .receiverOverrun

theorem State.keepsSlots_validate (s : State) : s.KeepsSlots s.validate := by
  have haddr : s.KeepsSlots s.checkAddress := s.keepsSlots_invalidateIf _ _
  have hcrc : s.checkAddress.KeepsSlots s.checkAddress.checkCrc := State.keepsSlots_invalidateIf _ _ _
  have hexc : s.checkAddress.checkCrc.KeepsSlots s.checkAddress.checkCrc.countException :=
    State.keepsSlots_of_store (State.countException_store _)
  rw [State.validate]
  exact ((haddr.trans hcrc).trans hexc).trans (State.keepsSlots_markFinished _)

theorem State.keepsSlots_endOfFrame (s : State) : s.KeepsSlots s.endOfFrame := by
  have hslots : s.endOfFrame.slots = (s.arm .interframe).validate.slots := by rw [State.endOfFrame]
  exact ((State.keepsSlots_of_eq (s.arm_slots _)).trans (State.keepsSlots_validate _)).trans
    (State.keepsSlots_of_eq hslots)

theorem State.keepsSlots_afterRxByte (s : State) : s.KeepsSlots s.afterRxByte := by
  unfold State.afterRxByte
  split
  · exact s.keepsSlots_endOfFrame
  · exact State.keepsSlots_of_eq rfl

/-- An anomaly that ends the transaction (43_client_fsm_timer.md R169, R171). -/
theorem State.keepsSlots_timeout (s : State) (a : Anomaly) (f : Fsm) :
    s.KeepsSlots ((s.invalidate a).markFinished.leave f) :=
  ((s.keepsSlots_invalidate a).trans (State.keepsSlots_markFinished _)).trans (State.keepsSlots_of_eq rfl)

theorem State.keepsSlots_onExpiry (s : State) : s.KeepsSlots s.onExpiry := by
  unfold State.onExpiry
  split
  · exact State.keepsSlots_of_eq rfl
  · exact s.keepsSlots_timeout .responseTimeout .idle
  · split
    · exact s.keepsSlots_timeout .intercharTimeout .ignoring
    · exact s.keepsSlots_endOfFrame
  · exact s.keepsSlots_markFinished.trans (State.keepsSlots_of_eq rfl)
  · exact State.keepsSlots_of_eq rfl

/-- Where there is room, `BACK` moves: a queue that is not full has at least two slots. -/
theorem State.inc_back_ne_of_not_full (hfull : s.full = false) : s.inc s.back ≠ s.back := by
  have htwo : 2 ≤ s.n := by
    have hsize := s.size_lt
    have hroom : s.size ≠ s.n - 1 := by simpa [State.full] using hfull
    omega
  intro hback
  have hlt : s.back < s.n := hback ▸ s.inc_lt s.back
  rw [State.inc_eq_ite hlt] at hback
  split at hback <;> omega

/-- Only a reset and the load of a slot begin a new transaction in it (41_transaction.md R134, R135). -/
theorem Effect.continues (heffect : Effect s i t) (hwf : i.wf = true) (hreset : i ≠ .queueReset) (hrst : i ≠ .rst)
    {k : Nat} (hload : ¬ (isEnqueue i = true ∧ t.back ≠ s.back ∧ k = s.back)) :
    (s.slot k).Continues (t.slot k) := by
  cases heffect with
  | @accepted _ _ _ _ _ _ r hi hfull =>
    have hslots : (s.accept r).slots = s.slots.set s.back (((s.slot s.back).overwrite r).mark .queued) := rfl
    have hk : k ≠ s.back := fun hk => hload ⟨hi, State.inc_back_ne_of_not_full hfull, hk⟩
    rw [State.slot_of_set_other hslots hk]
    exact Slot.continues_of_eq rfl rfl rfl
  | queueReset => exact absurd rfl hreset
  | rst => exact absurd rfl hrst
  | hwrCommand haddr hsize hop => exact absurd hwf (by simp [wf_hwr_command haddr hsize hop])
  | dequeued =>
    exact State.keepsSlots_of_set rfl (Slot.continues_of_eq (B := (s.slot s.front).mark .dequeued) rfl rfl rfl) k
  | @rxStored b e =>
    have hstored : s.KeepsSlots (((s.bump 0).pushRxByte b).rxFlags e) :=
      (State.keepsSlots_pushRxByte (s.bump 0) b).trans (State.keepsSlots_rxFlags _ e)
    exact hstored.trans (State.keepsSlots_afterRxByte _) k
  | txByte => exact State.keepsSlots_of_set rfl s.activeSlot.continues_popTxByte k
  | expired => exact s.keepsSlots_onExpiry k
  | claimed =>
    exact State.keepsSlots_of_set rfl (Slot.continues_of_eq (B := s.advance.activeSlot.mark .sent) rfl rfl rfl) k
  | hwrDuration d => cases d <;> exact Slot.continues_of_eq rfl rfl rfl
  | rejected | countersCleared | crc | tick | rxIgnored | txTurned | txIdle | notExpired | gateClosed | nothingToSend
  | hrd | hwrIllegal | hwrArg | hwrWdata | hwrRefused => exact Slot.continues_of_eq rfl rfl rfl

/-- Settles O11: outside loads and resets every slot goes on with its transaction, and a loaded frame is its bytes
followed by their CRC. -/
theorem requestIsImmutable : Obligations.RequestIsImmutable := by
  refine ⟨fun i s t k hwf hexec hreset hrst hload => ?_, fun dev fc p exp known r hr => ?_⟩
  · obtain ⟨⟨htx, hlen⟩, -⟩ := (effect_of_exec hexec).continues hwf hreset hrst hload
    exact ⟨hlen, fun j => by rw [Slot.txByte, htx, Slot.txByte]⟩
  · obtain ⟨hframe, -⟩ := load_bounds hr
    rw [hframe]
    exact crcCheck_withCrc _

/-- Settles O12: outside loads and resets every slot goes on with its transaction. -/
theorem validityIsMonotonic : Obligations.ValidityIsMonotonic :=
  fun _ _ _ _ b hwf hexec hreset hrst hload => ((effect_of_exec hexec).continues hwf hreset hrst hload).mask b

/-! ### Raising an anomaly -/

theorem State.activeBecomes_invalidate (hlt : s.active < s.slots.length) (a : Anomaly) :
    ActiveBecomes s (s.invalidate a) (s.activeSlot.flag a) :=
  ⟨s.invalidate_activeSlot hlt a, fun _ hj => s.invalidate_slot_other hj a⟩

theorem State.countedOnce_bump (s : State) (k : Fin 18) : CountedOnce s.ctr (s.bump k).ctr (· = k) :=
  fun j => ⟨fun hj => hj ▸ s.ctr_bump_same j, s.ctr_bump_other⟩

/-- Settles O15: mask and counter of each anomaly are those of its row, and `invalidate` sets the one and increments
the other. -/
theorem invalidateJoins : Obligations.InvalidateJoins := by
  intro s a m c hlt hrow
  have htable : ∀ row ∈ [(Anomaly.noise, (0x01 : Byte), (6 : Fin 18)), (.framing, 0x02, 7), (.parity, 0x04, 8),
      (.receiverOverrun, 0x08, 9), (.responseTimeout, 0x10, 4), (.unexpectedResponder, 0x20, 3),
      (.crcError, 0x40, 2), (.intercharTimeout, 0x80, 5)], row.1.mask = row.2.1 ∧ row.1.counter = row.2.2 := by
    decide
  obtain ⟨rfl, rfl⟩ : a.mask = m ∧ a.counter = c := htable _ hrow
  exact ⟨State.activeBecomes_invalidate hlt a,
    State.countedOnce_bump (s.setActive (s.activeSlot.flag a)) a.counter, rfl⟩

end Sys2Proof.Machine
end

section
/-! SUPPORT. Counters incremented once, and the operations on the active record as one equation each: a state with the
active record and the counters replaced. -/

namespace Sys2Proof.Machine

variable {s t : State}

/-! ### Counters -/

/-- The counters after `CTR[k]` has been incremented if `b` holds (10_state.md R41). -/
def countIf (ctr : Vector Word 18) (b : Bool) (k : Fin 18) : Vector Word 18 :=
  if b then ctr.set k (satInc ctr[k]) else ctr

theorem getElem_countIf (ctr : Vector Word 18) (b : Bool) (k j : Fin 18) :
    (countIf ctr b k)[j] = if b = true ∧ j = k then satInc ctr[j] else ctr[j] := by
  cases b with
  | false => simp [countIf]
  | true =>
    by_cases h : j = k
    · subst h
      simp [countIf]
    · have hne : (k : Nat) ≠ j := fun e => h (Fin.ext e.symm)
      simp [countIf, h, hne]

theorem countedOnce_countIf (ctr : Vector Word 18) (b : Bool) (k : Fin 18) :
    CountedOnce ctr (countIf ctr b k) fun j => b = true ∧ j = k :=
  fun j => ⟨fun h => by rw [getElem_countIf, if_pos h], fun h => by rw [getElem_countIf, if_neg h]⟩

/-- Increments of different counters, one after the other. -/
theorem CountedOnce.trans {a b c : Vector Word 18} {p q : Fin 18 → Prop} (hab : CountedOnce a b p)
    (hbc : CountedOnce b c q) (hpq : ∀ j, p j → ¬ q j) : CountedOnce a c fun j => p j ∨ q j := by
  intro j
  refine ⟨?_, fun h => ?_⟩
  · rintro (hp | hq)
    · rw [(hbc j).2 (hpq j hp), (hab j).1 hp]
    · rw [(hbc j).1 hq, (hab j).2 fun hp => hpq j hp hq]
  · obtain ⟨hp, hq⟩ := not_or.1 h
    rw [(hbc j).2 hq, (hab j).2 hp]

theorem CountedOnce.congr {a b : Vector Word 18} {p q : Fin 18 → Prop} (h : CountedOnce a b p)
    (hpq : ∀ j, q j ↔ p j) : CountedOnce a b q := fun j => by rw [hpq j]; exact h j

/-! ### The active record and the counters replaced -/

/-- `s` with the active record `A` and the counters `ctr`. -/
def State.withRecord (s : State) (A : Slot) (ctr : Vector Word 18) : State :=
  { s with slots := s.slots.set s.active A, ctr := ctr }

theorem State.withRecord_self (hlt : s.active < s.slots.length) : s.withRecord s.activeSlot s.ctr = s := by
  have hslots : s.slots.set s.active s.activeSlot = s.slots := by
    rw [State.activeSlot, State.slot, List.getD_eq_getElem _ _ hlt, List.set_getElem_self]
  rw [State.withRecord, hslots]

theorem State.activeSlot_withRecord (hlt : s.active < s.slots.length) (A : Slot) (ctr : Vector Word 18) :
    (s.withRecord A ctr).activeSlot = A :=
  State.slot_of_set_same rfl hlt

theorem State.setActive_withRecord (s : State) (A B : Slot) (ctr : Vector Word 18) :
    (s.withRecord A ctr).setActive B = s.withRecord B ctr := by
  simp [State.setActive, State.setSlot, State.withRecord]

/-- A state that differs in the active record alone, as far as the slots go. -/
theorem State.activeBecomes_of_set {A : Slot} (hlt : s.active < s.slots.length)
    (hslots : t.slots = s.slots.set s.active A) : ActiveBecomes s t A :=
  ⟨State.slot_of_set_same hslots hlt, fun _ hj => State.slot_of_set_other hslots hj⟩

/-- A record with the bit of an anomaly set if `b` holds (41_transaction.md R129). -/
def Slot.flagIf (A : Slot) (b : Bool) (a : Anomaly) : Slot :=
  { A with validMask := A.validMask ||| if b then a.mask else 0 }

theorem State.invalidateIf_withRecord (hlt : s.active < s.slots.length) (A : Slot) (ctr : Vector Word 18) (b : Bool)
    (a : Anomaly) : (s.withRecord A ctr).invalidateIf b a = s.withRecord (A.flagIf b a) (countIf ctr b a.counter) := by
  cases b with
  | false => simp [State.invalidateIf, Slot.flagIf, countIf]
  | true =>
    rw [State.invalidateIf, if_pos rfl, State.invalidate, State.activeSlot_withRecord hlt, State.setActive_withRecord]
    rfl

theorem State.markFinished_withRecord (hlt : s.active < s.slots.length) (A : Slot) (ctr : Vector Word 18) :
    (s.withRecord A ctr).markFinished = s.withRecord (A.mark .finished) ctr := by
  rw [State.markFinished, State.activeSlot_withRecord hlt, State.setActive_withRecord]

/-- An anomaly that ends the transaction, as one equation (43_client_fsm_timer.md R169, R171). -/
theorem State.invalidate_markFinished_eq (hlt : s.active < s.slots.length) (a : Anomaly) :
    (s.invalidate a).markFinished = s.withRecord ((s.activeSlot.flag a).mark .finished) (s.bump a.counter).ctr := by
  have hflag : s.invalidate a = s.withRecord (s.activeSlot.flag a) (s.bump a.counter).ctr := rfl
  rw [hflag, State.markFinished_withRecord hlt]

/-! ### Validation -/

/-- The record with the validity bits that validation sets (45_frame_parser.md R221, R222). -/
def Slot.flagged (A : Slot) : Slot :=
  (A.flagIf A.wrongResponder .unexpectedResponder).flagIf (!A.checkRxCrc) .crcError

/-- The counters after the exception step of validation (45_frame_parser.md R223). -/
def Slot.countedException (A : Slot) (ctr : Vector Word 18) : Vector Word 18 :=
  match exceptionCounter (A.rxByte 2) with
  | some k => countIf (countIf ctr A.isCountedException 10) A.isCountedException k
  | none => countIf ctr A.isCountedException 10

theorem State.countException_withRecord (hlt : s.active < s.slots.length) (A : Slot) (ctr : Vector Word 18) :
    (s.withRecord A ctr).countException = s.withRecord A (A.countedException ctr) := by
  rw [State.countException, State.activeSlot_withRecord hlt, Slot.countedException]
  cases A.isCountedException <;> cases exceptionCounter (A.rxByte 2) <;> rfl

/-- The counters after validation of the record `A` (45_frame_parser.md R220 to R223). -/
def Slot.validationCounters (A : Slot) (ctr : Vector Word 18) : Vector Word 18 :=
  A.flagged.countedException (countIf (countIf ctr A.wrongResponder 3) (!A.checkRxCrc) 2)

/-- Validation as one equation (45_frame_parser.md R220). -/
theorem State.validate_withRecord (hlt : s.active < s.slots.length) (A : Slot) (ctr : Vector Word 18) :
    (s.withRecord A ctr).validate = s.withRecord (A.flagged.mark .finished) (A.validationCounters ctr) := by
  rw [State.validate, State.checkAddress, State.activeSlot_withRecord hlt, State.invalidateIf_withRecord hlt,
    State.checkCrc, State.activeSlot_withRecord hlt, State.invalidateIf_withRecord hlt,
    State.countException_withRecord hlt, State.markFinished_withRecord hlt]
  rfl

theorem Slot.wrongResponder_iff (A : Slot) : A.wrongResponder = true ↔ A.badAddress := by
  simp [Slot.wrongResponder, Slot.badAddress, or_assoc]

theorem Slot.not_checkRxCrc_iff (A : Slot) : (!A.checkRxCrc) = true ↔ A.badCrc := by
  simp [Slot.checkRxCrc, Slot.badCrc]

/-- The two validity bits that validation may set. -/
def validationMask (badAddress badCrc : Bool) : Byte :=
  (if badAddress then 0x20 else 0) ||| if badCrc then 0x40 else 0

theorem validationMask_bits (w f : Bool) :
    (w = true → validationMask w f &&& 0x20 = 0x20) ∧ (¬ w = true → validationMask w f &&& 0x20 = 0) ∧
    (f = true → validationMask w f &&& 0x40 = 0x40) ∧ (¬ f = true → validationMask w f &&& 0x40 = 0) ∧
    validationMask w f &&& 0x9F = 0 := by
  revert w f
  decide

theorem Slot.flagged_eq (A : Slot) :
    A.flagged = { A with validMask := A.validMask ||| validationMask A.wrongResponder (!A.checkRxCrc) } := by
  simp only [Slot.flagged, Slot.flagIf, BitVec.or_assoc]
  rfl

/-- An exception response is counted if no validity bit has been set, before validation or by it. -/
theorem Slot.isCountedException_flagged_iff (A : Slot) : A.flagged.isCountedException = true ↔ A.countsException := by
  have hmask : validationMask A.wrongResponder (!A.checkRxCrc) = 0 ↔ ¬ A.badAddress ∧ ¬ A.badCrc := by
    rw [← A.wrongResponder_iff, ← A.not_checkRxCrc_iff]
    generalize A.wrongResponder = w
    generalize (!A.checkRxCrc) = f
    revert w f
    decide
  have hvalid : A.flagged.isValid = true ↔ A.validMask = 0 ∧ ¬ A.badAddress ∧ ¬ A.badCrc := by
    rw [← hmask, A.flagged_eq, Slot.isValid, beq_iff_eq]
    exact BitVec.or_eq_zero_iff
  rw [Slot.isCountedException, Bool.and_eq_true, Bool.and_eq_true, hvalid, decide_eq_true_iff, Slot.countsException]
  simp only [and_assoc]
  rfl

/-- The counter of an exception code (45_frame_parser.md R223). -/
theorem exceptionCounter_eq_some_iff (code : Byte) (k : Fin 18) :
    exceptionCounter code = some k ↔
      k = 11 ∧ code = 0x01 ∨ k = 12 ∧ code = 0x02 ∨ k = 13 ∧ code = 0x07 ∨ k = 14 ∧ code = 0x06 := by
  unfold exceptionCounter
  split_ifs with h1 h2 h7 h6
  · simp [h1, eq_comm]
  · simp [h2, eq_comm]
  · simp [h7, eq_comm]
  · simp [h6, eq_comm]
  · simp only [h1, h2, h7, h6, and_false, or_self]

theorem Slot.countedOnce_countedException (A : Slot) (ctr : Vector Word 18) :
    CountedOnce ctr (A.countedException ctr) fun j =>
      A.isCountedException = true ∧ (j = 10 ∨ exceptionCounter (A.rxByte 2) = some j) := by
  have hten := countedOnce_countIf ctr A.isCountedException 10
  unfold Slot.countedException
  cases hk : exceptionCounter (A.rxByte 2) with
  | none => exact hten.congr fun j => by simp
  | some k =>
    have hne : k ≠ 10 := by
      rcases (exceptionCounter_eq_some_iff _ _).1 hk with ⟨rfl, -⟩ | ⟨rfl, -⟩ | ⟨rfl, -⟩ | ⟨rfl, -⟩ <;> decide
    refine (hten.trans (countedOnce_countIf _ A.isCountedException k) ?_).congr fun j => ?_
    · rintro j ⟨-, rfl⟩ ⟨-, hj⟩
      exact hne hj.symm
    · rw [Option.some_inj, and_or_left, eq_comm (a := k)]

/-- The counters that validation increments (45_frame_parser.md R221 to R223). -/
theorem Slot.countedOnce_validationCounters (A : Slot) (ctr : Vector Word 18) :
    CountedOnce ctr (A.validationCounters ctr) fun j =>
      j = 3 ∧ A.badAddress ∨ j = 2 ∧ A.badCrc ∨
      A.countsException ∧ (j = 10 ∨ j = 11 ∧ A.rxByte 2 = 0x01 ∨ j = 12 ∧ A.rxByte 2 = 0x02 ∨
        j = 13 ∧ A.rxByte 2 = 0x07 ∨ j = 14 ∧ A.rxByte 2 = 0x06) := by
  have haddr := countedOnce_countIf ctr A.wrongResponder 3
  have hcrc := countedOnce_countIf (countIf ctr A.wrongResponder 3) (!A.checkRxCrc) 2
  have hexc := A.flagged.countedOnce_countedException (countIf (countIf ctr A.wrongResponder 3) (!A.checkRxCrc) 2)
  have hbyte : A.flagged.rxByte 2 = A.rxByte 2 := rfl
  simp only [A.wrongResponder_iff] at haddr
  simp only [A.not_checkRxCrc_iff] at hcrc
  simp only [A.isCountedException_flagged_iff, exceptionCounter_eq_some_iff, hbyte] at hexc
  refine ((haddr.trans hcrc ?_).trans hexc ?_).congr fun j => ?_
  · rintro j ⟨-, rfl⟩ ⟨-, hj⟩
    cases hj
  · rintro j (⟨-, rfl⟩ | ⟨-, rfl⟩) ⟨-, hj⟩ <;> simp at hj
  · rw [or_assoc, and_comm (a := j = 3), and_comm (a := j = 2)]

/-- What validation leaves is what 45_frame_parser.md R220 to R223 say of it. -/
theorem State.validated_of_set (hlt : s.active < s.slots.length) {A : Slot} {ctr : Vector Word 18}
    (hslots : t.slots = s.slots.set s.active (A.flagged.mark .finished))
    (hctr : t.ctr = A.validationCounters ctr) : Validated { s with ctr := ctr } A t := by
  obtain ⟨haddr, hnaddr, hcrc, hncrc, hrest⟩ := validationMask_bits A.wrongResponder (!A.checkRxCrc)
  rw [A.wrongResponder_iff] at haddr hnaddr
  rw [A.not_checkRxCrc_iff] at hcrc hncrc
  rw [A.flagged_eq] at hslots
  exact ⟨⟨_, haddr, hnaddr, hcrc, hncrc, hrest, State.activeBecomes_of_set hlt hslots⟩,
    hctr ▸ A.countedOnce_validationCounters ctr⟩

/-- The end of a frame as one equation (43_client_fsm_timer.md R167, R170). -/
theorem State.endOfFrame_withRecord (hlt : s.active < s.slots.length) (A : Slot) (ctr : Vector Word 18) :
    (s.withRecord A ctr).endOfFrame =
      (s.withRecord (A.flagged.mark .finished) (A.validationCounters ctr)).leave .idle := by
  have harm : (s.withRecord A ctr).arm .interframe = (s.arm .interframe).withRecord A ctr := rfl
  rw [State.endOfFrame, harm, State.validate_withRecord (s := s.arm .interframe) hlt]
  rfl

end Sys2Proof.Machine
end

section
/-! SUPPORT. `RX_BYTE` (43_client_fsm_timer.md R167, 41_transaction.md R124): the byte stored or dropped, its error
flags, and the frame going on or complete. -/

namespace Sys2Proof.Machine

variable {s t : State}

/-! ### The record and the counters after a byte -/

/-- No place is left for one more byte (41_transaction.md R124). -/
def Slot.rxFull (A : Slot) : Bool := decide (Config.rxCap ≤ A.rxCnt)

/-- The record after a byte has arrived, its error flags aside (41_transaction.md R124). -/
def Slot.pushed (A : Slot) (b : Byte) : Slot :=
  (if A.rxFull then A else A.storeRx b).flagIf A.rxFull .receiverOverrun

/-- The record after the error flags (43_client_fsm_timer.md R167). -/
def Slot.rxFlagged (A : Slot) (e : BitVec 4) : Slot :=
  (((A.flagIf (e.getLsbD 0) .noise).flagIf (e.getLsbD 1) .framing).flagIf (e.getLsbD 2) .parity).flagIf
    (e.getLsbD 3) .receiverOverrun

/-- The counters after a byte and its error flags (43_client_fsm_timer.md R167). -/
def Slot.receptionCounters (A : Slot) (e : BitVec 4) (ctr : Vector Word 18) : Vector Word 18 :=
  countIf (countIf (countIf (countIf (countIf (countIf ctr true 0) A.rxFull 9) (e.getLsbD 0) 6) (e.getLsbD 1) 7)
    (e.getLsbD 2) 8) (e.getLsbD 3) 9

theorem State.pushRxByte_withRecord (hlt : s.active < s.slots.length) (A : Slot) (ctr : Vector Word 18) (b : Byte) :
    (s.withRecord A ctr).pushRxByte b = s.withRecord (A.pushed b) (countIf ctr A.rxFull 9) := by
  have hpush : (s.withRecord A ctr).pushRxByte b =
      ((s.withRecord A ctr).setActive (if A.rxFull then A else A.storeRx b)).invalidateIf A.rxFull
        .receiverOverrun := by
    rw [State.pushRxByte, State.activeSlot_withRecord hlt, Slot.rxFull]
    split
    · simp [Nat.not_le.2 ‹_›, State.invalidateIf]
    · simp [Nat.not_lt.1 ‹_›, State.invalidateIf, State.setActive_withRecord]
  rw [hpush, State.setActive_withRecord, State.invalidateIf_withRecord hlt]
  rfl

/-- A byte received, as one equation (43_client_fsm_timer.md R167). -/
theorem State.received_eq (hlt : s.active < s.slots.length) (b : Byte) (e : BitVec 4) :
    ((s.bump 0).pushRxByte b).rxFlags e =
      s.withRecord ((s.activeSlot.pushed b).rxFlagged e) (s.activeSlot.receptionCounters e s.ctr) := by
  have hbump : s.bump 0 = s.withRecord s.activeSlot (countIf s.ctr true 0) := by
    conv_lhs => rw [← State.withRecord_self hlt]
    rfl
  rw [hbump, State.pushRxByte_withRecord hlt, State.rxFlags, State.invalidateIf_withRecord hlt,
    State.invalidateIf_withRecord hlt, State.invalidateIf_withRecord hlt, State.invalidateIf_withRecord hlt]
  rfl

/-- The four error flags of the driver are the low four validity bits (10_state.md R27). -/
theorem setWidth_errorFlags (e : BitVec 4) :
    e.setWidth 8 = (((if e.getLsbD 0 then Anomaly.noise.mask else 0) |||
      if e.getLsbD 1 then Anomaly.framing.mask else 0) ||| if e.getLsbD 2 then Anomaly.parity.mask else 0) |||
      if e.getLsbD 3 then Anomaly.receiverOverrun.mask else 0 := by
  revert e
  decide

theorem Slot.rxFlagged_eq (A : Slot) (e : BitVec 4) :
    A.rxFlagged e = { A with validMask := A.validMask ||| e.setWidth 8 } := by
  simp only [Slot.rxFlagged, Slot.flagIf, setWidth_errorFlags, BitVec.or_assoc]

/-- A byte stored in a buffer without gaps is read back at its place, and the other places keep their bytes. -/
theorem Slot.rxByte_storeRx {A : Slot} (hA : A.Wf) (b : Byte) (j : Nat) :
    (A.storeRx b).rxByte j = if j = A.rxCnt then b else A.rxByte j := by
  have hcnt := hA.rxCnt_le
  simp only [Slot.rxByte, Slot.storeRx, List.getD_eq_getElem?_getD, List.getElem?_append, List.getElem?_cons,
    List.getElem?_take, List.getElem?_drop, List.length_take, Nat.min_eq_left hcnt]
  rcases lt_trichotomy j A.rxCnt with hlt | rfl | hgt
  · simp [hlt, hlt.ne]
  · simp
  · simp [hgt.not_gt, hgt.ne', Nat.sub_ne_zero_of_lt hgt, show A.rxCnt + 1 + (j - A.rxCnt - 1) = j by omega]

theorem Slot.rxFull_eq_false_iff (A : Slot) : A.rxFull = false ↔ A.rxCnt < 256 := by
  simp [Slot.rxFull, Config.rxCap]

theorem Slot.rxFull_iff (A : Slot) : A.rxFull = true ↔ 256 ≤ A.rxCnt := by
  simp [Slot.rxFull, Config.rxCap]

/-- The record after a byte is what R124 and R167 say of it. -/
theorem Slot.received_rxFlagged {A : Slot} (hA : A.Wf) (b : Byte) (e : BitVec 4) :
    Received A b e ((A.pushed b).rxFlagged e) := by
  have hcap : A.rxCnt ≤ 256 := hA.rxCnt_le.trans hA.rx_le
  rw [Slot.rxFlagged_eq, Slot.pushed]
  cases hfull : A.rxFull with
  | false =>
    have hroom := A.rxFull_eq_false_iff.1 hfull
    refine ⟨(Nat.min_eq_left hroom).symm, fun _ => ?_, fun j hj => ?_, ?_, rfl⟩
    · exact (Slot.rxByte_storeRx hA b _).trans (if_pos rfl)
    · exact (Slot.rxByte_storeRx hA b j).trans (if_neg (by omega))
    · simp [Slot.flagIf, Slot.storeRx, hroom]
  | true =>
    have hfull := A.rxFull_iff.1 hfull
    refine ⟨by simp [Slot.flagIf]; omega, fun hroom => by omega, fun _ _ => rfl, ?_, rfl⟩
    simp only [Slot.flagIf, Nat.not_lt.2 hfull, if_true, if_false, BitVec.or_assoc, BitVec.or_comm (e.setWidth 8)]
    rfl

/-- The counters after a byte are what R124 and R167 say of them: no counter but `RECEIVER_OVERRUN` can count twice. -/
theorem Slot.receptionCounted_receptionCounters (A : Slot) (e : BitVec 4) (ctr : Vector Word 18) :
    receptionCounted A e ctr (A.receptionCounters e ctr) := by
  have hother (j : Fin 18) (hj : j ≠ 9) : (A.receptionCounters e ctr)[j] =
      if j = 0 ∨ j = 6 ∧ e.getLsbD 0 = true ∨ j = 7 ∧ e.getLsbD 1 = true ∨ j = 8 ∧ e.getLsbD 2 = true
      then satInc ctr[j] else ctr[j] := by
    simp only [Slot.receptionCounters, getElem_countIf, hj, and_false, if_false, true_and]
    grind
  have hover : (A.receptionCounters e ctr)[(9 : Fin 18)] =
      if e.getLsbD 3 then satInc (if A.rxFull then satInc ctr[(9 : Fin 18)] else ctr[(9 : Fin 18)])
      else if A.rxFull then satInc ctr[(9 : Fin 18)] else ctr[(9 : Fin 18)] := by
    have h0 : (9 : Fin 18) ≠ 0 ∧ (9 : Fin 18) ≠ 6 ∧ (9 : Fin 18) ≠ 7 ∧ (9 : Fin 18) ≠ 8 := by decide
    simp only [Slot.receptionCounters, getElem_countIf, h0, and_false, and_true, if_false]
  change (A.receptionCounters e ctr)[9] = _ at hover
  refine ⟨fun j hj => ?_, fun he hf => ?_, fun he hf => ?_, fun he hf => ?_, fun he hf => ?_⟩
  · rw [hother j hj]
    exact ⟨fun h => if_pos h, fun h => if_neg h⟩
  · rw [hover, he, A.rxFull_iff.2 hf]; rfl
  · rw [hover, he, A.rxFull_eq_false_iff.2 hf]; rfl
  · rw [hover, he, A.rxFull_iff.2 hf]; rfl
  · rw [hover, he, A.rxFull_eq_false_iff.2 hf]; rfl

/-! ### The end of a frame -/

/-- Whether the frame is complete was decided before the byte arrived: the exception rule asks for five bytes, so the
new one is not `rx[1]` (41_transaction.md R126). -/
theorem Received.isFullyReceived_iff {A B : Slot} {b : Byte} {e : BitVec 4} (h : Received A b e B) :
    B.isFullyReceived = true ↔ A.completesNext := by
  have hknown : B.lenKnown = A.lenKnown := (congrArg Slot.lenKnown h.frame :)
  have hexp : B.expLen = A.expLen := (congrArg Slot.expLen h.frame :)
  have hfunction (hcnt : 5 ≤ min (A.rxCnt + 1) 256) : B.rxByte 1 = A.rxByte 1 := h.kept 1 (.inl (by omega))
  rw [Slot.isFullyReceived, Slot.isShortException, Bool.or_eq_true, Bool.and_eq_true, Bool.and_eq_true,
    decide_eq_true_iff, decide_eq_true_iff, hknown, hexp, h.count, Slot.completesNext]
  exact or_congr_right (and_congr_right fun hcnt => by rw [hfunction hcnt])

theorem State.afterRxByte_of_complete (h : s.activeSlot.isFullyReceived = true) : s.afterRxByte = s.endOfFrame :=
  if_pos h

theorem State.afterRxByte_of_incomplete (h : s.activeSlot.isFullyReceived = false) : s.afterRxByte = s.arm .interchar :=
  if_neg (by simp [h])

theorem exec_rxByte_of_reception (hfsm : s.fsm = .reception) (b : Byte) (e : BitVec 4) :
    exec (.rxByte b e) s = .next (((s.bump 0).pushRxByte b).rxFlags e).afterRxByte :=
  if_pos hfsm

theorem exec_rxByte_of_not_reception (hfsm : s.fsm ≠ .reception) (b : Byte) (e : BitVec 4) :
    exec (.rxByte b e) s = .next (s.bump 0) :=
  if_neg hfsm

/-- Settles O43: outside `reception` the byte is counted; in it, the record and the counters are those of a received
byte, and the frame goes on or is validated. -/
theorem receiveByte : Obligations.ReceiveByte := by
  intro s b e hwf
  have hlt := hwf.active_lt
  refine ⟨fun hfsm => ⟨_, exec_rxByte_of_not_reception hfsm b e, s.countedOnce_bump 0, rfl⟩, fun hfsm => ?_⟩
  have hexec := exec_rxByte_of_reception hfsm b e
  have hactiveWf : s.activeSlot.Wf := hwf.slot_wf _
  have hreceived := Slot.received_rxFlagged hactiveWf b e
  have hcounted := s.activeSlot.receptionCounted_receptionCounters e s.ctr
  rw [State.received_eq hlt] at hexec
  generalize (s.activeSlot.pushed b).rxFlagged e = A at hexec hreceived
  generalize s.activeSlot.receptionCounters e s.ctr = ctr at hexec hcounted
  refine ⟨A, ctr, _, hreceived, hcounted, hexec, ?_⟩
  have hactive := State.activeSlot_withRecord hlt A ctr
  by_cases hcomplete : s.activeSlot.completesNext
  · have hfull := hreceived.isFullyReceived_iff.2 hcomplete
    rw [State.afterRxByte_of_complete (by rwa [hactive]), State.endOfFrame_withRecord hlt]
    exact ⟨rfl, absurd hcomplete, fun _ => ⟨State.validated_of_set hlt rfl rfl, rfl, rfl, rfl⟩⟩
  · have hpart : A.isFullyReceived = false := Bool.eq_false_iff.2 (mt hreceived.isFullyReceived_iff.1 hcomplete)
    rw [State.afterRxByte_of_incomplete (by rwa [hactive])]
    exact ⟨rfl, fun _ => ⟨State.activeBecomes_of_set hlt rfl, rfl, rfl, rfl⟩, (absurd · hcomplete)⟩

end Sys2Proof.Machine
end

section
/-! SUPPORT. The timer (43_client_fsm_timer.md R161 to R163) and `RUN_IN` (R168 to R173). -/

namespace Sys2Proof.Machine

variable {s t : State}

/-! ### `RUN_IN` -/

theorem exec_runIn_of_expired (h : s.expired = true) : exec .runIn s = .next s.onExpiry :=
  congrArg Host.Outcome.next (if_pos h)

theorem exec_runIn_of_not_expired (h : s.expired = false) : exec .runIn s = .next s :=
  congrArg Host.Outcome.next (if_neg (by simp [h]))

/-- An enabled timer whose duration has passed is expired (43_client_fsm_timer.md R163). -/
theorem State.expired_of_passed {k : Tmr} (htmr : s.tmr = k) (hk : k ≠ .none) (hpassed : s.passed (s.duration k)) :
    s.expired = true := by
  subst htmr
  exact s.expired_iff.2 ⟨hk, hpassed⟩

/-- Settles O45: without an expiry nothing is done, and the expiry of the inter-frame delay does nothing. -/
theorem pollWithoutExpiry : Obligations.PollWithoutExpiry := by
  intro s h
  cases hexpired : s.expired with
  | false => exact exec_runIn_of_not_expired hexpired
  | true =>
    obtain ⟨hnone, hpassed⟩ := s.expired_iff.1 hexpired
    have hquiet : s.tmr = .none ∨ s.tmr = .interframe := h.imp_right (·.resolve_right (not_not_intro hpassed))
    rw [exec_runIn_of_expired hexpired, State.onExpiry_of_quiet hquiet]

theorem exec_runIn_response (htmr : s.tmr = .response) (hpassed : s.passed s.durResponse) :
    exec .runIn s = .next s.responseTimeout := by
  rw [exec_runIn_of_expired (State.expired_of_passed htmr (by decide) hpassed), State.onExpiry, htmr]

theorem exec_runIn_turnaround (htmr : s.tmr = .turnaround) (hpassed : s.passed s.durTurnaround) :
    exec .runIn s = .next s.turnaroundOver := by
  rw [exec_runIn_of_expired (State.expired_of_passed htmr (by decide) hpassed), State.onExpiry, htmr]

theorem exec_runIn_interchar (htmr : s.tmr = .interchar) (hpassed : s.passed s.durInterchar) :
    exec .runIn s = .next (if s.activeSlot.lenKnown then s.intercharTimeout else s.endOfFrame) := by
  rw [exec_runIn_of_expired (State.expired_of_passed htmr (by decide) hpassed), State.onExpiry, htmr]

/-- A timeout that raises an anomaly leaves the flagged and finished record and one counter more
(43_client_fsm_timer.md R169, R171). -/
theorem exec_runIn_timeout (hlt : s.active < s.slots.length) {a : Anomaly} {f : Fsm}
    (hexec : exec .runIn s = .next ((s.invalidate a).markFinished.leave f)) :
    ∃ t, exec .runIn s = .next t ∧ ActiveBecomes s t ((s.activeSlot.flag a).mark .finished) ∧
      CountedOnce s.ctr t.ctr (· = a.counter) ∧ t.tmr = .interframe ∧ t.tmrStart = s.time ∧ t.fsm = f ∧
      { t with slots := s.slots, ctr := s.ctr, tmr := s.tmr, tmrStart := s.tmrStart, fsm := s.fsm } = s := by
  rw [State.invalidate_markFinished_eq hlt] at hexec
  exact ⟨_, hexec, State.activeBecomes_of_set hlt rfl, s.countedOnce_bump a.counter, rfl, rfl, rfl, rfl⟩

/-- Settles O46: the response timeout raises its anomaly, finishes the transaction and leaves reception; the invariant
says that the running response timer has seen no byte. -/
theorem responseTimeout : Obligations.ResponseTimeout := by
  intro s hwf htmr hpassed
  obtain ⟨t, hexec, hactive, hcounted, htmr', hstart, hfsm, hframe⟩ :=
    exec_runIn_timeout hwf.active_lt (exec_runIn_response htmr hpassed)
  refine ⟨t, hexec, hactive, hcounted, htmr', hstart, hfsm, hframe, fun hinv => ?_⟩
  obtain ⟨hcnt, hmask⟩ := hinv.seq.silent (.inl htmr)
  rw [hactive.active]
  refine ⟨hcnt, ?_⟩
  simp only [Slot.mark, Slot.flag, hmask]
  rfl

/-- Settles O47: with the length unknown the inter-character timeout is the end of the frame; the invariant says that
the running inter-character timer has seen a byte. -/
theorem silenceEndsFrame : Obligations.SilenceEndsFrame := by
  intro s hwf htmr hpassed hunknown
  have hlt := hwf.active_lt
  have hexec := exec_runIn_interchar htmr hpassed
  have hend := State.endOfFrame_withRecord hlt s.activeSlot s.ctr
  rw [State.withRecord_self hlt] at hend
  rw [if_neg (by simp [hunknown]), hend] at hexec
  exact ⟨_, hexec, State.validated_of_set hlt rfl rfl, rfl, rfl, rfl, rfl, fun hinv => hinv.seq.interchar htmr⟩

/-- Settles O48: with the length known the inter-character timeout raises its anomaly, and the engine goes on to ignore
the rest of the frame. -/
theorem intercharTimeout : Obligations.IntercharTimeout := by
  intro s hwf htmr hpassed hknown
  have hexec := exec_runIn_interchar htmr hpassed
  rw [if_pos hknown] at hexec
  exact exec_runIn_timeout hwf.active_lt hexec

/-- Settles O49: the end of the turnaround delay finishes the transaction and nothing else; the invariant says that
nothing has been received and no anomaly raised. -/
theorem turnaroundOver : Obligations.TurnaroundOver := by
  intro s hwf htmr hpassed
  have hactive : ActiveBecomes s s.turnaroundOver (s.activeSlot.mark .finished) :=
    State.activeBecomes_of_set hwf.active_lt rfl
  refine ⟨_, exec_runIn_turnaround htmr hpassed, hactive, rfl, rfl, rfl, rfl, fun hinv => ?_⟩
  rw [hactive.active]
  exact hinv.seq.silent (.inr htmr)

/-! ### Ticks -/

/-- `m` ticks advance `TIME` by `m` modulo 2^32 and do nothing else (43_client_fsm_timer.md R161). -/
theorem execAll_replicate_tick (m : Nat) (s : State) :
    execAll (List.replicate m .tick) s = .next { s with time := s.time + BitVec.ofNat 32 m } := by
  induction m generalizing s with
  | zero => simp [execAll]
  | succ m ih =>
    have hstep : execAll (List.replicate (m + 1) .tick) s =
        execAll (List.replicate m .tick) { s with time := s.time + 1 } := rfl
    have htime : s.time + 1 + BitVec.ofNat 32 m = s.time + BitVec.ofNat 32 (m + 1) := by
      rw [BitVec.add_assoc, BitVec.add_comm 1, BitVec.ofNat_add]
      rfl
    rw [hstep, ih, htime]

/-- Settles O50: `m` ticks after a timer was armed its elapsed count is `m`, whatever `TIME` was. -/
theorem expiryCountsTicks : Obligations.ExpiryCountsTicks := by
  refine ⟨State.expired_iff, fun s k m hk hm => ⟨_, execAll_replicate_tick m _, rfl, rfl, ?_⟩⟩
  have helapsed : (s.time + BitVec.ofNat 32 m - s.time).toNat = m := by
    rw [BitVec.add_comm, BitVec.add_sub_cancel, BitVec.toNat_ofNat, Nat.mod_eq_of_lt hm]
  rw [State.expired_iff, State.passed, helapsed]
  exact and_iff_right hk

end Sys2Proof.Machine
end

section
/-! SUPPORT. `TX_READY` (43_client_fsm_timer.md R166), and that no other operation drives `tx_data`. -/

namespace Sys2Proof.Machine

variable {s t : State} {i : Instr}

/-! ### What drives `tx_data` -/

theorem State.validate_txOut (s : State) : s.validate.txOut = s.txOut := by
  have hframe := congrArg State.txOut s.validate_frame
  dsimp only at hframe
  exact hframe

theorem State.endOfFrame_txOut (s : State) : s.endOfFrame.txOut = s.txOut := by
  rw [State.endOfFrame, State.validate_txOut, State.arm_txOut]

theorem State.afterRxByte_txOut (s : State) : s.afterRxByte.txOut = s.txOut := by
  cases h : s.activeSlot.isFullyReceived with
  | true => rw [State.afterRxByte_of_complete h, State.endOfFrame_txOut]
  | false => rw [State.afterRxByte_of_incomplete h, State.arm_txOut]

theorem State.received_txOut (s : State) (b : Byte) (e : BitVec 4) :
    (((s.bump 0).pushRxByte b).rxFlags e).txOut = s.txOut := by
  have hflags : (((s.bump 0).pushRxByte b).rxFlags e).txOut = _ :=
    (congrArg State.txOut (((s.bump 0).pushRxByte b).rxFlags_frame e) :)
  have hpush : ((s.bump 0).pushRxByte b).txOut = _ := (congrArg State.txOut ((s.bump 0).pushRxByte_frame b) :)
  rw [hflags, hpush, State.bump_txOut]

theorem State.onExpiry_txOut (s : State) : s.onExpiry.txOut = s.txOut := by
  unfold State.onExpiry
  split
  · rfl
  · rfl
  · split
    · rfl
    · exact s.endOfFrame_txOut
  · rfl
  · rfl

/-- No operation but `TX_READY` puts a byte on `tx_data`. -/
theorem Effect.txOut (heffect : Effect s i t) (hi : i ≠ .txReady) : t.txOut = s.txOut ∨ t.txOut = none := by
  induction heffect with
  | txByte | txTurned | txIdle => exact absurd rfl hi
  | rst => exact .inr rfl
  | rxStored => exact .inl ((State.afterRxByte_txOut _).trans (s.received_txOut _ _))
  | expired => exact .inl s.onExpiry_txOut
  | @hwrCommand _ _ _ op _ _ _ _ _ ih => exact ih (by cases op <;> simp [Opcode.toInstr])
  | hwrDuration d => cases d <;> exact .inl rfl
  | rejected | accepted | dequeued | queueReset | countersCleared | crc | tick | rxIgnored | notExpired | gateClosed
  | claimed | nothingToSend | hrd | hwrIllegal | hwrArg | hwrWdata | hwrRefused => exact .inl rfl

/-! ### The three branches -/

theorem Slot.isFullySent_iff (A : Slot) : A.isFullySent = true ↔ A.txLen ≤ A.txIdx := decide_eq_true_iff

theorem exec_txReady_of_left (hfsm : s.fsm = .emission) (hleft : s.activeSlot.isFullySent = false) :
    exec .txReady s = .next (((s.setActive s.activeSlot.popTxByte).wireTx s.activeSlot.nextTxByte).bump 1) :=
  (if_pos hfsm).trans (if_neg (by simp [hleft]))

theorem exec_txReady_of_sent (hfsm : s.fsm = .emission) (hsent : s.activeSlot.isFullySent = true) :
    exec .txReady s = .next { ({ s with txEn := false }).arm s.activeSlot.waitTimer with fsm := .reception } :=
  (if_pos hfsm).trans (if_pos hsent)

theorem exec_txReady_of_not_emission (hfsm : s.fsm ≠ .emission) :
    exec .txReady s = .next { s with txEn := false } :=
  if_neg hfsm

/-- Settles O42: the outcomes of the other operations leave `tx_data` alone or clear it, and each branch of `TX_READY`
is one equation. -/
theorem transmitReady : Obligations.TransmitReady := by
  refine ⟨fun i s t hi hexec => (effect_of_exec hexec).txOut hi, fun s hwf => ⟨fun hfsm hlt => ?_, fun hfsm hle => ?_,
    exec_txReady_of_not_emission⟩⟩
  · have hleft : s.activeSlot.isFullySent = false :=
      Bool.eq_false_iff.2 (mt s.activeSlot.isFullySent_iff.1 (Nat.not_le.2 hlt))
    have hexec := exec_txReady_of_left hfsm hleft
    rw [Slot.popTxByte_of_unsent hleft] at hexec
    exact ⟨_, hexec, rfl, rfl, State.activeBecomes_of_set hwf.active_lt rfl, s.countedOnce_bump 1, rfl⟩
  · exact exec_txReady_of_sent hfsm (s.activeSlot.isFullySent_iff.2 hle)

end Sys2Proof.Machine
end

section
/-! SUPPORT. `available_to_send` (42_message_queue.md R145): where `ACTIVE` comes to rest; and `RUN_OUT`
(43_client_fsm_timer.md R165). -/

namespace Sys2Proof.Machine

variable {s t : State}

/-! ### Where `ACTIVE` comes to rest -/

/-- Index `i` is where `ACTIVE` comes to rest: `BACK` if every live transaction is finished, else the oldest one that is
not, which is in flight or queued. -/
def State.RestsAt (s : State) (i : Nat) : Prop :=
  (i = s.back ∧ ∀ j, j < s.size → s.ringLife j = .finished) ∨
  ∃ j, s.OldestUnfinished j ∧ i = (s.front + j) % s.n ∧ (s.ringLife j = .sent ∨ s.ringLife j = .queued)

/-- There is one oldest transaction that is not finished. -/
theorem State.OldestUnfinished.unique {j k : Nat} (hj : s.OldestUnfinished j) (hk : s.OldestUnfinished k) : j = k := by
  obtain ⟨-, hnj, hbj⟩ := hj
  obtain ⟨-, hnk, hbk⟩ := hk
  rcases lt_trichotomy j k with hlt | heq | hgt
  · exact absurd (hbk j hlt) hnj
  · exact heq
  · exact absurd (hbj k hgt) hnk

theorem State.RestsAt.of_oldest {i j : Nat} (h : s.RestsAt i) (hj : s.OldestUnfinished j) :
    i = (s.front + j) % s.n ∧ (s.ringLife j = .sent ∨ s.ringLife j = .queued) := by
  rcases h with ⟨-, hfinished⟩ | ⟨k, hk, hi, hlife⟩
  · exact absurd (hfinished j hj.1) hj.2.1
  · obtain rfl := hk.unique hj
    exact ⟨hi, hlife⟩

theorem State.RestsAt.of_finished {i : Nat} (h : s.RestsAt i) (hfinished : ∀ j, j < s.size → s.ringLife j = .finished) :
    i = s.back := by
  rcases h with ⟨hi, -⟩ | ⟨k, ⟨hk, hne, -⟩, -⟩
  · exact hi
  · exact absurd (hfinished k hk) hne

theorem State.RestsAt.unique {i k : Nat} (hi : s.RestsAt i) (hk : s.RestsAt k) : i = k := by
  rcases hk with ⟨hk, hfinished⟩ | ⟨j, hj, hk, -⟩
  · rw [hk, hi.of_finished hfinished]
  · rw [hk, (hi.of_oldest hj).1]

theorem State.NextToSend.oldest {j : Nat} (h : s.NextToSend j) : s.OldestUnfinished j := by
  obtain ⟨hj, hqueued, hbefore⟩ := h
  exact ⟨hj, by simp [hqueued], hbefore⟩

/-- A transaction that is neither finished nor dequeued stops the advance at once. -/
theorem State.advance_of_not_done (h : s.activeSlot.life.isDone = false) : s.advance = s := by
  rw [State.advance, State.advanceFrom_of_not_done _ _ h]

/-- With nothing but finished and dequeued slots the loop goes once round the ring, from `BACK` to `BACK`. -/
theorem State.advanceFrom_round (hb : s.back < s.n)
    (hdone : ∀ i, i < s.n → (s.slot i).life.isDone = true) :
    s.advanceFrom (s.n - 1) false (s.inc s.back) = s.back := by
  have hpos := s.n_pos
  refine State.advanceFrom_of_all_done hdone le_rfl (s.inc_lt _) ?_
  rw [State.inc, Nat.mod_add_mod, show s.back + 1 + (s.n - 1) = s.back + s.n by omega, Nat.add_mod_right,
    Nat.mod_eq_of_lt hb]

section
variable (hf : s.front < s.n) (hb : s.back < s.n)
include hf hb

/-- An index with nothing but finished transactions before it, at `BACK` or at a transaction that is not done. -/
theorem State.restsAt_of_place {i : Nat} (hi : i < s.n) (hbefore : ∀ j, j < s.place i → s.ringLife j = .finished)
    (hstop : s.place i = s.size ∨
      s.place i < s.size ∧ (s.ringLife (s.place i) = .sent ∨ s.ringLife (s.place i) = .queued)) : s.RestsAt i := by
  rcases hstop with hback | ⟨hlive, hlife⟩
  · exact .inl ⟨(State.place_inj hf hi hb).1 hback, fun j hj => hbefore j (hback ▸ hj)⟩
  · refine .inr ⟨s.place i, ⟨hlive, ?_, hbefore⟩, (State.index_place hf hi).symm, hlife⟩
    rcases hlife with hl | hl <;> simp [hl]

/-- After one turn of the loop `ACTIVE` rests at the next index, if that is `BACK` or holds a queued transaction. -/
theorem State.restsAt_inc {off : Nat} (hoff : s.place (s.inc s.active) = off) (hlt : off < s.n)
    (hshape : RingShape s.n s.size off s.ringLife) (hstop : off = s.size ∨ s.ringLife off = .queued)
    (hbefore : ∀ j, j < off → s.ringLife j = .finished) (fuel : Nat) :
    s.RestsAt (s.advanceFrom fuel false (s.inc s.active)) := by
  subst hoff
  rw [State.advanceFrom_stops hf hb (s.inc_lt _) hstop]
  exact State.restsAt_of_place hf hb (s.inc_lt _) hbefore
    (hstop.imp_right fun hq => ⟨(hshape.live hlt (.inr hq)).1, .inr hq⟩)

/-- Where `available_to_send` leaves `ACTIVE` (42_message_queue.md R145). -/
theorem State.advance_restsAt (ha : s.active < s.n) (h : s.Ring) : s.RestsAt s.advance.active := by
  have hshape := (State.ring_iff_shape hf hb ha).1 h
  have hsize : s.size < s.n := s.size_lt
  have hactive : s.activeSlot.life = s.ringLife s.activeOffset := (State.ringLife_place hf ha).symm
  have hnext : s.place (s.inc s.active) = if s.activeOffset + 1 = s.n then 0 else s.activeOffset + 1 :=
    State.place_inc hf ha
  rw [s.advance_active_eq_ite, hactive]
  rcases h.position with ⟨hlive, hbefore, hlife, -⟩ | ⟨hback, hfinished⟩ | ⟨hlag, hdequeued, hqueued⟩
  · rcases hlife with hl | hl
    · obtain ⟨hshape', hstop⟩ := hshape.advance_live hlive hl
      rw [if_pos (by rw [hl]; rfl)]
      refine State.restsAt_inc hf hb (hnext.trans (if_neg (by omega))) (by omega) hshape' hstop (fun j hj => ?_) _
      rcases Nat.lt_succ_iff_lt_or_eq.1 hj with hj | rfl
      · exact hbefore j hj
      · exact hl
    · rw [if_neg (by rcases hl with hl | hl <;> simp [hl, Life.isDone])]
      exact State.restsAt_of_place hf hb ha hbefore (.inr ⟨hlive, hl⟩)
  · refine .inl ⟨?_, hfinished⟩
    split
    · rename_i hdone
      have hoff : s.activeOffset = s.size := (State.place_inj hf ha hb).2 hback
      have hdequeued : s.ringLife s.size = .dequeued := by
        rcases h.outside s.size le_rfl hsize with hl | hl
        · simp [hoff, hl, Life.isDone] at hdone
        · exact hl
      rw [hback, State.advanceFrom_round hb fun i hi => ?_]
      rw [← State.ringLife_place hf hi]
      exact hshape.all_done hfinished hdequeued (s.place_lt i)
    · exact hback
  · obtain ⟨hshape', hstop⟩ := (hlag ▸ hshape).advance_lagging hqueued
    rw [← hactive, if_pos (by rw [hdequeued]; rfl)]
    exact State.restsAt_inc hf hb (hnext.trans (if_pos (by omega))) s.n_pos hshape' hstop (fun j hj => by omega) _

end

/-! ### `available_to_send` -/

theorem State.Inv.advance_restsAt (h : s.Inv) : s.RestsAt s.advance.active :=
  State.advance_restsAt h.wf.front h.wf.back h.wf.active h.ring

/-- A second advance right after the first changes nothing (90_conflicts.md C2). -/
theorem State.Inv.advance_advance (h : s.Inv) : s.advance.advance = s.advance := by
  have hf := h.wf.front
  have hb := h.wf.back
  have ha := h.wf.active
  have hlt : s.advance.active < s.n := State.advanceFrom_lt _ _ ha
  have hshape := State.advance_ringShape hf hb ha ((State.ring_iff_shape hf hb ha).1 h.ring)
  have hring : s.advance.Ring := (State.ring_iff_shape (s := s.advance) hf hb hlt).2 hshape
  have hagain : s.RestsAt s.advance.advance.active := State.advance_restsAt (s := s.advance) hf hb hlt hring
  have hactive : s.advance.advance.active = s.advance.active := hagain.unique h.advance_restsAt
  rw [State.advance, ← State.advance_active, hactive]

theorem State.sendable_iff (s : State) : s.sendable = true ↔ (s.slot s.advance.active).life = .queued := beq_iff_eq

/-- `available_to_send` answers whether the oldest transaction not finished is queued (42_message_queue.md R145). -/
theorem State.Inv.sendable_iff_nextToSend (h : s.Inv) : s.sendable = true ↔ ∃ j, s.NextToSend j := by
  have hrests := h.advance_restsAt
  rw [s.sendable_iff]
  constructor
  · intro hqueued
    rcases hrests with ⟨hi, -⟩ | ⟨j, ⟨hj, -, hbefore⟩, hi, -⟩
    · rw [hi] at hqueued
      rcases h.back_free with hl | hl <;> simp [hl] at hqueued
    · exact ⟨j, hj, by rw [State.ringLife, ← hi, hqueued], hbefore⟩
  · rintro ⟨j, hj⟩
    rw [(hrests.of_oldest hj.oldest).1]
    exact hj.2.1

/-- `available_to_send` in a reachable state (42_message_queue.md R145). -/
theorem State.Inv.availableToSend (h : s.Inv) : s.AvailableToSend where
  onlyActive := s.advance_frame
  atUnfinished _ hj := (h.advance_restsAt.of_oldest hj).1
  atBack := h.advance_restsAt.of_finished
  answer := h.sendable_iff_nextToSend
  claims _ := by
    have hlt : s.advance.active < s.slots.length := h.wf.slots ▸ State.advanceFrom_lt _ _ h.wf.active
    exact ⟨State.activeBecomes_of_set hlt rfl, s.claim_frame⟩
  inFlight hsent := by
    have hstays := State.advance_of_not_done (s := s) (by rw [hsent]; rfl)
    refine ⟨hstays, Bool.eq_false_iff.2 fun hsend => ?_⟩
    rw [s.sendable_iff, hstays] at hsend
    cases hsend.symm.trans hsent
  settles hsend := by
    refine ⟨?_, h.advance_advance⟩
    rw [State.sendable, h.advance_advance]
    exact hsend

/-! ### `RUN_OUT` -/

theorem State.gate_iff (s : State) : s.gate = true ↔ s.gateOpen := by
  rw [State.gate, Bool.or_eq_true, Bool.and_eq_true, beq_iff_eq, beq_iff_eq, s.expired_iff, State.gateOpen]
  refine or_congr_right (and_congr_right fun htmr => ?_)
  rw [htmr]
  exact and_iff_right (by decide)

theorem exec_runOut_of_closed (hgate : s.gate = false) : exec .runOut s = .next s :=
  if_neg (by simp [hgate])

theorem exec_runOut_of_sendable (hgate : s.gate = true) (hsend : s.sendable = true) :
    exec .runOut s = .next s.claim.startEmission :=
  (if_pos hgate).trans (if_pos hsend)

theorem exec_runOut_of_not_sendable (hgate : s.gate = true) (hsend : s.sendable = false) :
    exec .runOut s = .next { s.advance with tmr := .none, fsm := .idle } :=
  (if_pos hgate).trans (if_neg (by simp [hsend]))

/-- With the gate open no transaction is in flight (10_state.md R46). -/
theorem State.Inv.ringLife_ne_sent (h : s.Inv) (hgate : s.gate = true) (j : Nat) : s.ringLife j ≠ .sent := by
  intro hsent
  have hactive : s.activeSlot.life = .sent := by
    rw [State.ringLife, h.sent_eq_active (Nat.mod_lt _ s.n_pos) hsent] at hsent
    exact hsent
  obtain ⟨hnone, hinterframe⟩ := h.seq.inFlight_iff.1 (h.seq.only hactive)
  rcases State.tmr_of_gate hgate with ht | ht
  · exact hnone ht
  · exact hinterframe ht

/-- `RUN_OUT` claims the oldest queued transaction (43_client_fsm_timer.md R165). -/
theorem State.Inv.runOut_claims (h : s.Inv) (hgate : s.gate = true) {j : Nat} (hj : s.NextToSend j) :
    ∃ t, exec .runOut s = .next t ∧ t.active = (s.front + j) % s.n ∧
      ActiveBecomes { s with active := (s.front + j) % s.n } t { s.slot ((s.front + j) % s.n) with life := .sent } ∧
      t.tmr = (s.slot ((s.front + j) % s.n)).waitPurpose ∧ t.tmrStart = s.time ∧ t.txEn = true ∧
      t.fsm = .emission ∧
      { t with active := s.active, slots := s.slots, tmr := s.tmr, tmrStart := s.tmrStart, txEn := s.txEn,
               fsm := s.fsm } = s := by
  have hexec := exec_runOut_of_sendable hgate (h.sendable_iff_nextToSend.2 ⟨j, hj⟩)
  have hactive : s.advance.active = (s.front + j) % s.n := (h.advance_restsAt.of_oldest hj.oldest).1
  have hlt : s.advance.active < s.slots.length := h.wf.slots ▸ State.advanceFrom_lt _ _ h.wf.active
  rw [← hactive]
  have hclaimed : s.claim.activeSlot = s.advance.activeSlot.mark .sent := s.advance.activeSlot_setActive hlt _
  refine ⟨_, hexec, rfl, State.activeBecomes_of_set (s := s.advance) hlt rfl, ?_, rfl, rfl, rfl, rfl⟩
  rw [State.startEmission_tmr, hclaimed]
  rfl

/-- Settles O51: `ACTIVE` comes to rest at the oldest transaction that is not finished or at `BACK`, and with the gate
open that transaction is queued. -/
theorem runOut : Obligations.RunOut := by
  refine fun s => ⟨fun hclosed => ?_, fun h hopen => ?_, State.Inv.availableToSend⟩
  · exact exec_runOut_of_closed (Bool.eq_false_iff.2 (mt s.gate_iff.1 hclosed))
  have hgate := s.gate_iff.2 hopen
  refine ⟨fun j hj => h.runOut_claims hgate hj, fun hfinished => ?_, ?_⟩
  · have hnone : s.sendable = false := by
      refine Bool.eq_false_iff.2 fun hsend => ?_
      obtain ⟨j, hj, hqueued, -⟩ := h.sendable_iff_nextToSend.1 hsend
      cases hqueued.symm.trans (hfinished j hj)
    have hadvance : s.advance = { s with active := s.back } := by
      rw [State.advance, ← State.advance_active, h.advance_restsAt.of_finished hfinished]
    rw [exec_runOut_of_not_sendable hgate hnone, hadvance]
  · rcases h.advance_restsAt with ⟨-, hfinished⟩ | ⟨j, ⟨hj, -, hbefore⟩, -, hlife⟩
    · exact .inr hfinished
    · exact .inl ⟨j, hj, hlife.resolve_left (h.ringLife_ne_sent hgate j), hbefore⟩

end Sys2Proof.Machine
end

section
/-! SUPPORT. The request encoders and `ENQ_RAW` (44_pdu_encoders.md): which operands they accept, and the request that
accepted operands leave in `SLOT[BACK]`. -/

namespace Sys2Proof.Machine

/-! ### What loading a slot leaves -/

/-- Bytes of the transmit buffer beyond the loaded frame stay (41_transaction.md R121). -/
theorem Slot.txByte_overwrite_of_le (t : Slot) (r : Request) {k : Nat} (hk : r.frame.length ≤ k) :
    (t.overwrite r).txByte k = t.txByte k := by
  have hback : r.frame.length + (k - r.frame.length) = k := by omega
  simp [Slot.txByte, Slot.overwrite, List.getElem?_append_right hk, List.getElem?_drop, hback]

/-- Accepting a request leaves it, queued, in `SLOT[BACK]` (44_pdu_encoders.md R190). -/
theorem State.enqueued_accept {s : State} (h : s.Wf) (r : Request) :
    Enqueued s (s.accept r) r.frame r.expLen r.lenKnown := by
  have hslots : (s.accept r).slots = s.slots.set s.back (((s.slot s.back).overwrite r).mark .queued) := rfl
  have hslot : (s.accept r).slot s.back = ((s.slot s.back).overwrite r).mark .queued :=
    State.slot_of_set_same hslots h.back_lt
  constructor
  case txFrame => rw [hslot, Slot.txFrame_mark, Slot.txFrame_overwrite]
  case oldTx => exact fun k hk => hslot ▸ Slot.txByte_overwrite_of_le _ r hk
  case others => exact fun j hj => State.slot_of_set_other hslots hj
  case result | herr | back | wdata | frame => intros; rfl
  case txLen | txIdx | rxCnt | expLen | lenKnown | life | validMask | oldRx => intros; rw [hslot]; rfl

/-! ### The common flow -/

/-- The operands pass the bounds of their encoder and those of `load` (44_pdu_encoders.md R190, 41_transaction.md
R121). -/
def Loadable (ok : Bool) (p1 p2 : List Byte) (exp : Nat) (known : Bool) : Prop :=
  ok = true ∧ p1.length + p2.length + 4 ≤ Config.txCap ∧ (known = true → exp ≤ Config.rxCap)

theorem load_eq_none_iff (dev fc : Byte) (p : List Byte) (exp : Nat) (known : Bool) :
    load dev fc p exp known = none ↔ Config.txCap < p.length + 4 ∨ (known = true ∧ Config.rxCap < exp) := by
  simp [load, imp_iff_or_not, or_comm]

section
variable {s : State} {i : Instr} {dev fc : Byte} {ok : Bool} {p1 p2 : List Byte} {exp : Nat} {known : Bool}

/-- Operands out of bounds are rejected, by the encoder or by `load` (44_pdu_encoders.md R190). -/
theorem State.encodeAndEnqueue_of_not_loadable (h : ¬ Loadable ok p1 p2 exp known) :
    s.encodeAndEnqueue dev fc ok p1 p2 exp known = s.rejectCommand .bounds := by
  cases ok with
  | false => rfl
  | true =>
    have hload : load dev fc (p1 ++ p2) exp known = none := by
      rw [load_eq_none_iff, List.length_append]
      simpa only [Loadable, true_and, not_and_or, Classical.not_imp, Nat.not_le] using h
    simp only [State.encodeAndEnqueue, load2, hload, if_true]

/-- A command that is the common flow of the encoders does what R190 says of its operands. -/
theorem encodes_of_exec (h : s.Wf) {inBounds : Prop} {frame : List Byte} {expLen : Nat}
    (hexec : exec i s = .next (s.encodeAndEnqueue dev fc ok p1 p2 exp known))
    (hbounds : inBounds ↔ Loadable ok p1 p2 exp known) (hframe : frame = withCrc (dev :: fc :: (p1 ++ p2)))
    (hexp : expLen = if known then exp else 0) : Encodes s i inBounds frame expLen known := by
  rw [hbounds]
  subst hframe hexp
  constructor
  case bounds =>
    intro hout
    exact ⟨_, hexec, State.encodeAndEnqueue_of_not_loadable hout ▸ s.rejected_rejectCommand .bounds⟩
  case full =>
    rintro ⟨hok, hlen, hknown⟩ hroom
    have hfull : s.full = true := (State.full_iff_noRoom h).2 hroom
    have hrejects := State.encodeAndEnqueue_full (dev := dev) (fc := fc) hok hlen hknown hfull
    exact ⟨_, hexec, hrejects ▸ s.rejected_rejectCommand .queueFull⟩
  case enqueues =>
    rintro ⟨hok, hlen, hknown⟩ hroom
    have hfull : s.full = false := Bool.eq_false_iff.2 (mt (State.full_iff_noRoom h).1 hroom)
    have haccepts := State.encodeAndEnqueue_accepts (dev := dev) (fc := fc) hok hlen hknown hfull
    exact ⟨_, hexec, haccepts ▸ State.enqueued_accept h _⟩

end

/-! ### The bounds of the operands -/

theorem loadable_iff (ok : Bool) (p1 p2 : List Byte) (exp : Nat) (known : Bool) :
    Loadable ok p1 p2 exp known ↔
      ok = true ∧ p1.length + p2.length + 4 ≤ 256 ∧ (known = true → exp ≤ 256) := Iff.rfl

@[simp] theorem length_be16 (v : Half) : (be16 v).length = 2 := rfl

/-- 2000 coils are answered within the receive buffer. -/
theorem loadable_bitRead (a c : Half) :
    1 ≤ c.toNat ∧ c.toNat ≤ 2000 ↔ Loadable (inRange 1 2000 c) (be16 a ++ be16 c) [] (5 + ceil8 c.toNat) true := by
  simp only [loadable_iff, inRange_iff, ceil8_eq, List.length_append, length_be16, List.length_nil]
  omega

/-- 125 registers are answered within the receive buffer. -/
theorem loadable_registerRead (a c : Half) :
    1 ≤ c.toNat ∧ c.toNat ≤ 125 ↔ Loadable (inRange 1 125 c) (be16 a ++ be16 c) [] (5 + 2 * c.toNat) true := by
  simp only [loadable_iff, inRange_iff, List.length_append, length_be16, List.length_nil]
  omega

/-- Two 16-bit fields are always loadable. -/
theorem loadable_twoFields (a b : Half) : True ↔ Loadable true (be16 a ++ be16 b) [] 8 true :=
  by simp [loadable_iff]

/-- 1968 coils to write fit into the transmit buffer: their data are 246 bytes. -/
theorem loadable_coilsWrite (s : State) (a c : Half) :
    1 ≤ c.toNat ∧ c.toNat ≤ 1968 ↔ Loadable (inRange 1 1968 c) (be16 a ++ be16 c ++ [countByte (ceil8 c.toNat)])
      (s.wdataPrefix (ceil8 c.toNat)) 8 true := by
  simp only [loadable_iff, inRange_iff, ceil8_eq, List.length_append, length_be16, List.length_singleton,
    State.length_wdataPrefix]
  omega

/-- 123 registers to write fit into the transmit buffer. -/
theorem loadable_registersWrite (s : State) (a c : Half) :
    1 ≤ c.toNat ∧ c.toNat ≤ 123 ↔ Loadable (inRange 1 123 c) (be16 a ++ be16 c ++ [countByte (2 * c.toNat)])
      (s.wdataPrefix (2 * c.toNat)) 8 true := by
  simp only [loadable_iff, inRange_iff, List.length_append, length_be16, List.length_singleton, State.length_wdataPrefix]
  omega

/-- 121 registers to write fit into the transmit buffer beside the fields of the read, and 125 registers are answered
within the receive buffer. -/
theorem loadable_readWrite (s : State) (a c b d : Half) :
    (1 ≤ c.toNat ∧ c.toNat ≤ 125) ∧ 1 ≤ d.toNat ∧ d.toNat ≤ 121 ↔
      Loadable (inRange 1 125 c && inRange 1 121 d)
        (be16 a ++ be16 c ++ be16 b ++ be16 d ++ [countByte (2 * d.toNat)]) (s.wdataPrefix (2 * d.toNat))
        (5 + 2 * c.toNat) true := by
  simp only [loadable_iff, Bool.and_eq_true, inRange_iff, List.length_append, length_be16, List.length_singleton,
    State.length_wdataPrefix]
  omega

/-- The staging buffer holds as many bytes as a frame has room for, so `load` itself bounds the expected length
only. -/
theorem loadable_raw (s : State) (c : Half) (exp : Nat) (known : Bool) :
    c.toNat ≤ 252 ∧ (known = true → exp ≤ 256) ↔
      Loadable (inRange 0 Config.wdataCap c) [] (s.wdataPrefix c.toNat) exp known := by
  have hlength : c.toNat ≤ 252 ↔ inRange 0 252 c = true ∧ 0 + c.toNat + 4 ≤ 256 := by
    rw [inRange_iff]
    omega
  rw [loadable_iff, State.length_wdataPrefix, List.length_nil, ← and_assoc, hlength]

/-! ### The statements -/

/-- Settles O21: both commands are the common flow, with bounds that leave nothing for `load` to reject. -/
theorem bitReads : Obligations.BitReads := by
  intro s dev h
  rw [← ceil8_eq]
  exact ⟨encodes_of_exec h rfl (loadable_bitRead _ _) rfl rfl, encodes_of_exec h rfl (loadable_bitRead _ _) rfl rfl⟩

/-- Settles O22: both commands are the common flow, with bounds that leave nothing for `load` to reject. -/
theorem registerReads : Obligations.RegisterReads :=
  fun _ _ h => ⟨encodes_of_exec h rfl (loadable_registerRead _ _) rfl rfl,
    encodes_of_exec h rfl (loadable_registerRead _ _) rfl rfl⟩

/-- Settles O23: the second field is the coil value of the operand. -/
theorem singleCoilWrite : Obligations.SingleCoilWrite := by
  refine fun s dev h => ⟨fun hoff => ?_, fun hon => ?_⟩
  · have hvalue : coilValue (s.arg 1) = 0x0000 := if_pos hoff
    exact encodes_of_exec h rfl (loadable_twoFields _ _) (by rw [hvalue]; rfl) rfl
  · have hvalue : coilValue (s.arg 1) = 0xFF00 := if_neg hon
    exact encodes_of_exec h rfl (loadable_twoFields _ _) (by rw [hvalue]; rfl) rfl

/-- Settles O24: the three commands are the common flow without bounds of their own. -/
theorem fixedRequests : Obligations.FixedRequests :=
  fun _ _ h => ⟨encodes_of_exec h rfl (loadable_twoFields _ _) rfl rfl,
    encodes_of_exec h rfl (loadable_twoFields _ _) rfl rfl,
    encodes_of_exec h rfl (by simp [loadable_iff]) rfl rfl⟩

/-- Settles O25: the two segments are the fields with the byte count and the first bytes of `WDATA`. -/
theorem multipleWrites : Obligations.MultipleWrites := by
  intro s dev h
  rw [← ceil8_eq]
  exact ⟨encodes_of_exec h rfl (loadable_coilsWrite s _ _) rfl rfl,
    encodes_of_exec h rfl (loadable_registersWrite s _ _) rfl rfl⟩

/-- Settles O26: the bounds of both counts together leave nothing for `load` to reject. -/
theorem readWriteRegisters : Obligations.ReadWriteRegisters :=
  fun s _ h => encodes_of_exec h rfl (loadable_readWrite s _ _ _ _) rfl rfl

/-- Settles O27: `load` checks the expected length when it is known, and stores 0 otherwise. -/
theorem rawEnqueue : Obligations.RawEnqueue := by
  intro s dev h
  have hexec (known : Bool) (hknown : (s.arg 3).getLsbD 0 = known) :
      exec (.enqRaw dev) s = .next (s.encodeAndEnqueue dev (loByte (s.arg 0)) (inRange 0 Config.wdataCap (s.arg 1)) []
        (s.wdataPrefix (s.arg 1).toNat) (s.arg 2).toNat known) := hknown ▸ rfl
  refine ⟨fun hknown => ?_, fun hunknown => ?_⟩
  · exact encodes_of_exec h (hexec true hknown) (by simp [← loadable_raw]) rfl rfl
  · exact encodes_of_exec h (hexec false hunknown) (by simp [← loadable_raw]) rfl rfl

end Sys2Proof.Machine
end

section
/-! CLAIM. The steps of response validation (45_frame_parser.md R220 to R223). -/

namespace Sys2Proof.Machine

/-- Settles O44: a state is itself with its own active record and counters, so the equation of validation on a replaced
record says what `validate` does to it. -/
theorem validationSteps : Obligations.ValidationSteps := by
  intro s hlt
  have hvalidate := State.validate_withRecord hlt s.activeSlot s.ctr
  rw [State.withRecord_self hlt] at hvalidate
  exact ⟨State.validated_of_set hlt (congrArg State.slots hvalidate) (congrArg State.ctr hvalidate), s.validate_frame⟩

end Sys2Proof.Machine
end

section
/-! CLAIM. The control commands `DEQUEUE`, `QUEUE_RESET` and `CLEAR_COUNTERS` (46_control_ops.md R230 to R233). -/

namespace Sys2Proof.Machine

/-! ### `DEQUEUE` -/

theorem exec_dequeue_of_ready {s : State} (h : s.responseReady = true) :
    exec .dequeue s = .next (s.dequeueFront.commandDone (resultOk (BitVec.ofNat 16 s.front))) :=
  if_pos h

theorem exec_dequeue_of_not_ready {s : State} (h : ¬ s.responseReady = true) :
    exec .dequeue s = .next (s.rejectCommand .notReady) :=
  if_neg h

/-- An index below N is kept whole in the 16 bits of `VALUE` (30_encoding.md R84). -/
theorem State.Wf.resultOk_index {s : State} (h : s.Wf) {i : Nat} (hi : i < s.n) :
    resultOk (BitVec.ofNat 16 i) = BitVec.ofNat 32 i <<< 16 ||| 1 := by
  have hn := h.n_le
  have hwidth : (BitVec.ofNat 16 i).setWidth 32 = BitVec.ofNat 32 i :=
    BitVec.setWidth_ofNat_of_le_of_lt (by decide) (by omega)
  rw [resultOk_eq_or, hwidth]

/-- Settles O29: a ready response is the non-empty queue with a finished front slot; then the dequeue replaces the front
slot by its dequeued record, and else the command is rejected. -/
theorem dequeueCommand : Obligations.DequeueCommand := by
  intro s h
  rw [← s.responseReady_iff]
  refine ⟨fun hready => ?_, fun hnot => ?_⟩
  · have hslots : (s.dequeueFront.commandDone (resultOk (BitVec.ofNat 16 s.front))).slots =
        s.slots.set s.front ((s.slot s.front).mark .dequeued) := rfl
    exact ⟨_, exec_dequeue_of_ready hready, h.resultOk_index h.front, rfl, rfl,
      State.slot_of_set_same hslots h.front_lt, fun _ hj => State.slot_of_set_other hslots hj, rfl⟩
  · exact ⟨_, exec_dequeue_of_not_ready hnot, s.rejected_rejectCommand .notReady⟩

/-! ### `QUEUE_RESET` -/

/-- Every slot of a store reset at once is its old record reset; outside the store a slot is blank before and after. -/
theorem State.slot_of_map_reset {s t : State} (hslots : t.slots = s.slots.map Slot.reset) (i : Nat) :
    t.slot i = (s.slot i).reset := by
  have hblank : Slot.blank = Slot.blank.reset := rfl
  rw [State.slot, hslots, hblank, List.getD_map, State.slot]

/-- Settles O30: the command is total, and each slot afterwards is its old record reset. -/
theorem queueResetCommand : Obligations.QueueResetCommand := by
  intro s
  refine ⟨_, rfl, rfl, rfl, rfl, rfl, rfl, rfl, rfl, rfl, rfl, fun i => ?_, rfl⟩
  rw [State.slot_of_map_reset (s := s) rfl i]
  exact ⟨rfl, rfl, rfl, rfl, rfl, rfl, rfl, fun _ => rfl, fun _ => rfl⟩

/-! ### `CLEAR_COUNTERS` -/

/-- Settles O31: the command is total, and replaces all counters by zeros. -/
theorem clearCountersCommand : Obligations.ClearCountersCommand :=
  fun _ => ⟨_, rfl, rfl, rfl, fun k => Vector.getElem_replicate k.isLt, rfl⟩

end Sys2Proof.Machine
end

section
/-! CLAIM. `RST` and power-on (70_reset_and_hazards.md R270, 10_state.md R45). -/

namespace Sys2Proof.Machine

/-! ### The cycle of `RST` -/

theorem decode_of_rst {p : PortIn} (h : p.rst = true) : decode p = .ok .rst :=
  if_pos h

theorem consume_of_rst {p : PortIn} (h : p.rst = true) : consume p = {} :=
  if_pos (by rw [h, Bool.true_or, Bool.true_or])

/-! ### The state afterwards -/

/-- In a store that resetting leaves as it is, every slot is a reset one. -/
theorem State.slot_eq_reset {t : State} (h : t.slots = t.slots.map Slot.reset) (i : Nat) : t.slot i = (t.slot i).reset :=
  State.slot_of_map_reset h i

/-- The registers of the power-on state around a store of N reset slots meet the reset table, whatever the model's own
records (inputs to come, bytes sent, free-value counters) hold. -/
theorem afterReset_of_slots {p : Params} {time : Word} {slots : List Slot} {w : List Byte} {is : List PortIn} {r n : Nat}
    (hcount : slots.length = p.n) (hreset : slots = slots.map Slot.reset) :
    AfterReset p { State.resetWith p time with slots := slots, wire := w, inputs := is, resets := r, staleReads := n } := by
  have hslot (i : Nat) := State.slot_eq_reset (t := { State.resetWith p time with slots := slots }) hreset i
  exact {
    args := fun k => Vector.getElem_replicate k.isLt
    result := rfl
    fsm := rfl
    front := rfl
    back := rfl
    active := rfl
    count := hcount
    life := fun i => congrArg Slot.life (hslot i)
    validMask := fun i => congrArg Slot.validMask (hslot i)
    lengths := fun i => hslot i ▸ ⟨rfl, rfl, rfl, rfl, rfl⟩
    tmr := rfl
    tmrStart := rfl
    durResponse := rfl
    durInterchar := rfl
    durTurnaround := rfl
    durInterframe := rfl
    ctr := fun k => Vector.getElem_replicate k.isLt
    txEn := rfl
    irqResp := rfl
    herr := rfl
    txOut := rfl
    hrdata := rfl }

/-- Resetting a store of slots again changes nothing. -/
theorem map_reset_idem (slots : List Slot) : slots.map Slot.reset = (slots.map Slot.reset).map Slot.reset :=
  (List.map_map (f := Slot.reset) (g := Slot.reset)).symm

/-- Power-on puts N blank slots in the store, and a blank slot is a reset one. -/
theorem afterReset_resetWith (p : Params) (time : Word) : AfterReset p (State.resetWith p time) :=
  afterReset_of_slots (time := time) List.length_replicate (List.map_replicate (f := Slot.reset) (a := Slot.blank)).symm

/-- `RST` resets the N slots that are there. -/
theorem State.Wf.exec_rst {s : State} (h : s.Wf) : ∃ t, exec .rst s = .next t ∧ AfterReset s.params t :=
  ⟨_, rfl, afterReset_of_slots ((List.length_map _).trans h.slots) (map_reset_idem s.slots)⟩

/-- Settles O1: `RST` is decoded first and leaves no pin to carry out; both the operation and power-on leave the
registers of the power-on state around N reset slots. -/
theorem resetState : Obligations.ResetState :=
  ⟨fun _ h => ⟨decode_of_rst h, consume_of_rst h⟩, fun _ h => h.exec_rst, fun p time _ => afterReset_resetWith p time,
    rfl, rfl, rfl, rfl⟩

end Sys2Proof.Machine
end

section
/-! CLAIM. Every step keeps the shape of the state and the invariant of the engine; power-on meets it. -/

namespace Sys2Proof.Machine

variable {s t : State}

/-! ### The shape -/

/-- A state with the same store has the same shape. -/
theorem State.Wf.of_store (h : s.Wf) (hstore : t.store = s.store) : t.Wf := by
  simp only [State.store, Prod.mk.injEq] at hstore
  obtain ⟨hparams, hfront, hback, hactive, hslots, hmem⟩ := hstore
  have hn : t.n = s.n := by rw [State.n, hparams, State.n]
  exact ⟨hparams ▸ h.params, by rw [hslots, hn, h.slots], by rw [hfront, hn]; exact h.front,
    by rw [hback, hn]; exact h.back, by rw [hactive, hn]; exact h.active, hslots ▸ h.slot, hmem ▸ h.mem, hmem ▸ h.wdata⟩

/-- A well-formed record in place of the active one keeps the shape. -/
theorem State.Wf.of_rewrites {A : Slot} (h : s.Wf) (hr : s.Rewrites t A) (hA : A.Wf) : t.Wf :=
  h.of_set hr.slots hA hr.params hr.mem (hr.front ▸ h.front) (hr.back ▸ h.back) (hr.active ▸ h.active)

/-- The end of a frame changes flags of the active record only (45_frame_parser.md R220). -/
theorem State.Wf.endOfFrame (h : s.Wf) : s.endOfFrame.Wf := by
  obtain ⟨m, hm⟩ := State.endOfFrame_rewrites h.active_lt
  exact h.of_rewrites hm ((h.slot_wf _).setFlags _ _)

theorem State.Wf.rxStored (h : s.Wf) (b : Byte) (e : BitVec 4) :
    (((s.bump 0).pushRxByte b).rxFlags e).afterRxByte.Wf := by
  obtain ⟨A, hr, hA⟩ := State.received_rewrites h.active_lt (h.slot_wf _) b e
  have hreceived := h.of_rewrites hr hA.wf
  unfold State.afterRxByte
  split
  · exact hreceived.endOfFrame
  · exact hreceived.of_store rfl

theorem State.Wf.onExpiry (h : s.Wf) : s.onExpiry.Wf := by
  have hflag (a : Anomaly) (f : Fsm) : ((s.invalidate a).markFinished.leave f).Wf :=
    h.of_rewrites ((State.invalidate_markFinished_rewrites h.active_lt a).of_store rfl) ((h.slot_wf _).setFlags _ _)
  unfold State.onExpiry
  split
  · exact h
  · exact hflag .responseTimeout .idle
  · split
    · exact hflag .intercharTimeout .ignoring
    · exact h.endOfFrame
  · exact h.of_rewrites (s.rewrites_markFinished.of_store rfl) ((h.slot_wf _).setFlags _ _)
  · exact h

theorem State.Wf.advance (h : s.Wf) : s.advance.Wf :=
  ⟨h.params, h.slots, h.front, h.back, State.advanceFrom_lt _ _ h.active, h.slot, h.mem, h.wdata⟩

/-- An empty queue of reset slots, in `QUEUE_RESET` and in `RST`. -/
theorem State.Wf.of_map_reset (h : s.Wf) (hparams : t.params = s.params) (hslots : t.slots = s.slots.map Slot.reset)
    (hindices : t.front = 0 ∧ t.back = 0 ∧ t.active = 0) (hmem : t.mem = s.mem ∨ t.mem = []) : t.Wf := by
  obtain ⟨hfront, hback, hactive⟩ := hindices
  have hn : t.n = s.n := by rw [State.n, hparams, State.n]
  have hpos := t.n_pos
  refine ⟨hparams ▸ h.params, by rw [hslots, List.length_map, h.slots, hn], hfront ▸ hpos, hback ▸ hpos, hactive ▸ hpos,
    fun A hA => (h.map_reset A (hslots ▸ hA)).1, ?_, ?_⟩
  · rcases hmem with hm | hm <;> rw [hm]
    · exact h.mem
    · rfl
  · rcases hmem with hm | hm <;> rw [hm]
    · exact h.wdata
    · rfl

/-- Every operation keeps the shape, in every well-formed state. -/
theorem Effect.keeps_wf {i : Instr} (heffect : Effect s i t) (h : s.Wf) : t.Wf := by
  induction heffect with
  | @accepted _ _ _ _ _ _ r _ _ hload =>
    obtain ⟨-, -, hlen, hexp⟩ := load_bounds hload
    have hslots : (s.accept r).slots = s.slots.set s.back (((s.slot s.back).overwrite r).mark .queued) := rfl
    exact h.of_set hslots (((h.slot_wf _).overwrite hlen hexp).setFlags _ _) rfl rfl h.front (s.inc_lt _) h.active
  | dequeued =>
    have hslots : s.dequeueFront.slots = s.slots.set s.front ((s.slot s.front).mark .dequeued) := rfl
    exact h.of_set hslots ((h.slot_wf _).setFlags _ _) rfl rfl (s.inc_lt _) h.back h.active
  | queueReset => exact h.of_map_reset rfl rfl ⟨rfl, rfl, rfl⟩ (.inl rfl)
  | rst => exact h.of_map_reset rfl rfl ⟨rfl, rfl, rfl⟩ (.inr rfl)
  | rxStored => exact h.rxStored _ _
  | txByte _ hleft =>
    exact h.of_rewrites ((s.rewrites_setActive s.activeSlot.popTxByte).of_store rfl) ((h.slot_wf _).popTxByte hleft)
  | expired => exact h.onExpiry
  | claimed =>
    exact h.advance.of_rewrites ((s.advance.rewrites_setActive (s.advance.activeSlot.mark .sent)).of_store rfl)
      ((h.advance.slot_wf _).setFlags _ _)
  | nothingToSend => exact h.advance.of_store rfl
  | hwrCommand _ _ _ _ ih => exact ih
  | hwrDuration d => cases d <;> exact h.of_store rfl
  | hwrWdata hk v =>
    exact ⟨h.params, h.slots, h.front, h.back, h.active, h.slot, Memory.wf_set h.mem _ v,
      Memory.inWdata_set h.wdata hk v⟩
  | rejected | countersCleared | crc | tick | rxIgnored | txTurned | txIdle | notExpired | gateClosed | hrd | hwrIllegal
  | hwrArg | hwrRefused => exact h.of_store rfl

/-! ### Every step -/

/-- A step is the fetch of the pins and then one operation, so it keeps what both keep. -/
theorem step_keeps {P : State → Prop} (hstart : P s → P s.startCycle) (hconsumed : ∀ u : State, P u → P u.consumed)
    (hexec : ∀ (i : Instr) (u : State), P u → exec i u = .next t → P t) (h : P s) (hstep : step s = .next t) : P t := by
  have hfetch : P s.fetch := by
    unfold State.fetch
    split
    · exact hstart h
    · exact h
  unfold step at hstep
  split at hstep
  · exact hexec _ _ (hconsumed _ hfetch) hstep
  · cases hstep
    exact hfetch

/-- Settles O3: the fetch leaves the store alone, and every outcome of an operation keeps its shape. -/
theorem everyStepKeepsShape : Obligations.EveryStepKeepsShape :=
  fun _ _ h hstep => step_keeps (fun h => h.of_store rfl) (fun _ h => h.of_store rfl)
    (fun _ _ h hexec => (effect_of_exec hexec).keeps_wf h) h hstep

/-! ### The invariant -/

/-- Settles O4: the fetch leaves store and timer alone, and every outcome of an operation keeps the invariant. -/
theorem everyStepKeepsInvariant : Obligations.EveryStepKeepsInvariant :=
  fun _ _ => step_keeps_inv

/-- Settles O2: an empty queue of blank slots with no timer enabled, for the parameters of `State.reset` too. -/
theorem resetMeetsInvariant : Obligations.ResetMeetsInvariant :=
  ⟨fun _ time inputs hp => inv_resetWith hp time inputs, inv_resetWith (p := Params.examples) rfl 0 []⟩

end Sys2Proof.Machine
end

section
/-! CLAIM. The encoder against the decoder of the pins (30_encoding.md R80, R81, R87, R88), and what a step runs. -/

namespace Sys2Proof

/-- The pins of an access ask for it and for nothing else (30_encoding.md R88). -/
theorem decode_encodeAccess (write : Bool) (size : HSize) (addr data : Word) :
    decode (encodeAccess write size addr data) = .ok (decodeAccess write size addr data) ∧
      consume (encodeAccess write size addr data) = {} := by
  simp [decode, consume, encodeAccess]

/-! ### Commands -/

/-- The pins of a command ask for it and for nothing else (30_encoding.md R80, R81). -/
theorem decode_encodeCommand {op : Byte} {o : Opcode} (hop : decodeOpcode op = some o) (dev : Byte) :
    decode (encodeCommand dev op) = .ok (o.toInstr dev) ∧ consume (encodeCommand dev op) = {} := by
  obtain ⟨haccess, hconsume⟩ := decode_encodeAccess true .word 0 (commandWord dev op)
  have hword : decodeCommand (commandWord dev op) = .ok (o.toInstr dev) := Machine.decodeCommand_append o hop 0#16 dev
  rw [encodeCommand, haccess, decodeAccess, if_pos rfl, if_pos ⟨rfl, rfl⟩, hword]
  exact ⟨rfl, hconsume⟩

/-! ### Accesses -/

/-- A bus write with an illegal opcode or to another place is no command (10_state.md R23). -/
theorem wf_hwr_iff (addr : Word) (size : HSize) (data : Word) :
    (Instr.hwr addr size data).wf = true ↔ ¬ (addr = 0 ∧ size = .word ∧ wordOpcode data ∈ legalOpcodes) := by
  rw [Instr.wf, isCommandWrite, Bool.not_eq_true', Bool.eq_false_iff, wordOpcode]
  simp [and_assoc]

theorem wf_toInstr (op : Opcode) (dev : Byte) : (op.toInstr dev).wf = true := by
  cases op <;> rfl

/-- A word to `CMD` that does not decode has an illegal opcode. -/
theorem decodeCommand_error_iff (w : Word) : (∃ e, decodeCommand w = .error e) ↔ wordOpcode w ∉ legalOpcodes := by
  rw [← Machine.decodeCommand_ok_iff]
  cases decodeCommand w <;> simp

/-- A well-formed write is read back as a write. -/
theorem decodeAccess_write_of_wf {addr : Word} {size : HSize} {data : Word} (h : (Instr.hwr addr size data).wf = true) :
    decodeAccess true size addr data = .hwr addr size data := by
  rw [wf_hwr_iff] at h
  rw [decodeAccess, if_pos rfl]
  split
  · rename_i hcmd
    obtain ⟨e, he⟩ := (decodeCommand_error_iff data).2 fun hop => h ⟨hcmd.1, hcmd.2, hop⟩
    rw [he]
  · rfl

/-- What the decoder reads from an access is well formed. -/
theorem wf_decodeAccess (write : Bool) (size : HSize) (addr data : Word) :
    (decodeAccess write size addr data).wf = true := by
  unfold decodeAccess
  split
  · split
    · cases hd : decodeCommand data with
      | ok i =>
        unfold decodeCommand at hd
        split at hd <;> cases hd
        exact wf_toInstr _ _
      | error e =>
        have hop := (decodeCommand_error_iff data).1 ⟨e, hd⟩
        exact (wf_hwr_iff _ _ _).2 fun h => hop h.2.2
    · rename_i hnot
      exact (wf_hwr_iff _ _ _).2 fun h => hnot ⟨h.1, h.2.1⟩
  · rfl

theorem wf_of_decode {p : PortIn} {i : Instr} (h : decode p = .ok i) : i.wf = true := by
  unfold decode at h
  split_ifs at h <;> cases h
  · rfl
  · rfl
  · rfl
  · rfl
  · rfl
  · rfl
  · exact wf_decodeAccess _ _ _ _

/-- The encoding of a well-formed instruction asks for that instruction and for nothing else. -/
theorem decode_encode {i : Instr} (h : i.wf = true) : decode (encode i) = .ok i ∧ consume (encode i) = {} := by
  cases i with
  | readCoils dev => exact decode_encodeCommand (o := .readCoils) rfl dev
  | readDiscreteInputs dev => exact decode_encodeCommand (o := .readDiscreteInputs) rfl dev
  | readHoldingRegisters dev => exact decode_encodeCommand (o := .readHoldingRegisters) rfl dev
  | readInputRegisters dev => exact decode_encodeCommand (o := .readInputRegisters) rfl dev
  | writeSingleCoil dev => exact decode_encodeCommand (o := .writeSingleCoil) rfl dev
  | writeSingleRegister dev => exact decode_encodeCommand (o := .writeSingleRegister) rfl dev
  | diagnostics dev => exact decode_encodeCommand (o := .diagnostics) rfl dev
  | getCommEventCounter dev => exact decode_encodeCommand (o := .getCommEventCounter) rfl dev
  | writeMultipleCoils dev => exact decode_encodeCommand (o := .writeMultipleCoils) rfl dev
  | writeMultipleRegisters dev => exact decode_encodeCommand (o := .writeMultipleRegisters) rfl dev
  | readWriteMultipleRegisters dev => exact decode_encodeCommand (o := .readWriteMultipleRegisters) rfl dev
  | enqRaw dev => exact decode_encodeCommand (o := .enqRaw) rfl dev
  | dequeue => exact decode_encodeCommand (o := .dequeue) rfl 0
  | queueReset => exact decode_encodeCommand (o := .queueReset) rfl 0
  | clearCounters => exact decode_encodeCommand (o := .clearCounters) rfl 0
  | crcGen => exact decode_encodeCommand (o := .crcGen) rfl 0
  | crcChk => exact decode_encodeCommand (o := .crcChk) rfl 0
  | tick | txReady | runIn | runOut | rst => exact ⟨rfl, rfl⟩
  | rxByte b e => simp [decode, encode, encodeEvent, consume, clearFirstStrobe, PortIn.isQuiet]
  | hrd addr size => exact decode_encodeAccess false size addr 0
  | hwr addr size data =>
    rw [encode, ← decodeAccess_write_of_wf h]
    exact decode_encodeAccess true size addr data

/-- Settles O16: a command goes through the opcode map, an event through its strobe, an access through its signals; and
the decoder reads a write only where it reads no command. -/
theorem decodeEncode : Obligations.DecodeEncode :=
  ⟨fun _ => decode_encode, fun _ _ => wf_of_decode⟩

/-- Settles O18: each word is laid out on the pins and decoded by computation. -/
theorem sampleWords : Obligations.SampleWords := by
  unfold Obligations.SampleWords
  decide

/-! ### What a step runs -/

/-- Pins that ask for an operation are not quiet. -/
theorem isQuiet_of_decode {p : PortIn} {i : Instr} (h : decode p = .ok i) : p.isQuiet = false := by
  by_contra hquiet
  simp only [PortIn.isQuiet, Bool.not_eq_false, Bool.and_eq_true, Bool.not_eq_true', beq_iff_eq] at hquiet
  obtain ⟨⟨hrst, hevt⟩, hsel⟩ := hquiet
  simp [decode, hrst, hevt, hsel] at h

namespace Machine

/-- With operations left on the pins, a step runs the first one (43_client_fsm_timer.md R160). -/
theorem step_of_pending {s : State} {i : Instr} (hpins : s.pins.isQuiet = false) (hdecode : decode s.pins = .ok i) :
    step s = exec i { s with pins := consume s.pins } := by
  have hfetch : s.fetch = s := if_neg (by simp [hpins])
  rw [step, hfetch, hdecode]
  rfl

/-- With none left, a step samples the pins of the next cycle and runs the first operation there. -/
theorem step_of_quiet {s : State} {i : Instr} (hpins : s.pins.isQuiet = true) (hdecode : decode s.nextPins = .ok i) :
    step s = exec i { s with pins := consume s.nextPins, inputs := s.inputs.tail, txOut := none, hrdata := none,
                             herr := false } := by
  have hfetch : s.fetch = s.startCycle := if_pos hpins
  rw [step, hfetch, State.startCycle_pins, hdecode]
  rfl

/-- Settles O19: the fetch keeps pins that are not quiet and samples new ones otherwise; an encoding is not quiet, and
nothing is left of it. -/
theorem stepRunsDecoded : Obligations.StepRunsDecoded := by
  refine ⟨fun s i => step_of_pending, fun s i => step_of_quiet, fun s i hwf => ?_⟩
  obtain ⟨hdecode, hconsume⟩ := decode_encode hwf
  rw [step_of_pending (s := { s with pins := encode i }) (isQuiet_of_decode hdecode) hdecode, hconsume]

end Machine

end Sys2Proof
end

section
/-! CLAIM. Every operation completes (00_scope.md R11); which registers each operation may write (10_state.md R20 to R42);
`TIME`, and the start of a transmission (43_client_fsm_timer.md R161, R178). -/

namespace Sys2Proof.Machine

variable {s t u : State} {i : Instr}

/-! ### Completion -/

theorem exec_hwr_completes (addr : Word) (size : HSize) (data : Word) (s : State) :
    ∃ t, exec (.hwr addr size data) s = .next t := by
  cases ha : s.access addr size with
  | none => exact ⟨_, exec_hwr_of_no_access ha data⟩
  | some l =>
    rw [exec_hwr_of_access ha]
    cases hw : l.isWritable with
    | true =>
      obtain ⟨t, ht, -⟩ := writeLoc_clears_herr hw data s
      exact ⟨t, ht⟩
    | false => exact ⟨_, writeLoc_of_not_writable hw data s⟩

/-- An event answers a next state in each of its branches. -/
theorem exec_event_completes (hi : isEvent i = true) (s : State) : ∃ t, exec i s = .next t := by
  cases i with
  | tick | runIn => exact ⟨_, rfl⟩
  | rxByte b e =>
    by_cases hfsm : s.fsm = .reception
    · exact ⟨_, exec_rxByte_of_reception hfsm b e⟩
    · exact ⟨_, exec_rxByte_of_not_reception hfsm b e⟩
  | txReady =>
    by_cases hfsm : s.fsm = .emission
    · cases hsent : s.activeSlot.isFullySent with
      | true => exact ⟨_, exec_txReady_of_sent hfsm hsent⟩
      | false => exact ⟨_, exec_txReady_of_left hfsm hsent⟩
    · exact ⟨_, exec_txReady_of_not_emission hfsm⟩
  | runOut =>
    cases hgate : s.gate with
    | false => exact ⟨_, exec_runOut_of_closed hgate⟩
    | true =>
      cases hsend : s.sendable with
      | true => exact ⟨_, exec_runOut_of_sendable hgate hsend⟩
      | false => exact ⟨_, exec_runOut_of_not_sendable hgate hsend⟩
  | readCoils | readDiscreteInputs | readHoldingRegisters | readInputRegisters | writeSingleCoil
  | writeSingleRegister | diagnostics | getCommEventCounter | writeMultipleCoils | writeMultipleRegisters
  | readWriteMultipleRegisters | enqRaw | dequeue | queueReset | clearCounters | crcGen | crcChk | hrd | hwr
  | rst => cases hi

/-- No operation blocks, faults or is refused (00_scope.md R11). -/
theorem exec_completes (i : Instr) (s : State) : ∃ t, exec i s = .next t := by
  cases i with
  | readCoils | readDiscreteInputs | readHoldingRegisters | readInputRegisters | writeSingleCoil
  | writeSingleRegister | diagnostics | getCommEventCounter | writeMultipleCoils | writeMultipleRegisters
  | readWriteMultipleRegisters | enqRaw | dequeue | queueReset | clearCounters | crcGen | crcChk =>
    exact exec_command_completes rfl s
  | tick | rxByte | txReady | runIn | runOut => exact exec_event_completes rfl s
  | hrd addr size =>
    cases ha : s.access addr size with
    | none => exact ⟨_, exec_hrd_of_no_access ha⟩
    | some l => exact ⟨_, exec_hrd_of_access ha⟩
  | hwr addr size data => exact exec_hwr_completes addr size data s
  | rst => exact ⟨_, rfl⟩

/-- Settles O7: each operation has a next state in each of its branches, and a step is one operation or none. -/
theorem everyOperationCompletes : Obligations.EveryOperationCompletes := by
  refine ⟨exec_completes, fun s => ?_⟩
  unfold step
  split
  · exact exec_completes _ _
  · exact ⟨_, rfl⟩

/-! ### The progress of a transaction -/

/-- `t` differs from `s` in slots, counters, timer and `FSM` at most, which is what the progress of the transaction in
flight writes. -/
def State.Progresses (s t : State) : Prop :=
  { t with slots := s.slots, ctr := s.ctr, tmr := s.tmr, tmrStart := s.tmrStart, fsm := s.fsm } = s

theorem State.progresses_of_slotsCtr (h : { t with slots := s.slots, ctr := s.ctr } = s) : s.Progresses t := by
  have hmore := congrArg (fun u : State => { u with tmr := s.tmr, tmrStart := s.tmrStart, fsm := s.fsm }) h
  exact hmore

theorem State.Progresses.trans (hst : s.Progresses t) (htu : t.Progresses u) : s.Progresses u := by
  have hback := congrArg (fun v : State =>
    { v with slots := s.slots, ctr := s.ctr, tmr := s.tmr, tmrStart := s.tmrStart, fsm := s.fsm }) htu
  exact hback.trans hst

/-- The later state, written as the earlier one with the five fields replaced. -/
theorem State.Progresses.eq (h : s.Progresses t) :
    t = { s with slots := t.slots, ctr := t.ctr, tmr := t.tmr, tmrStart := t.tmrStart, fsm := t.fsm } := by
  have hforward := congrArg (fun v : State =>
    { v with slots := t.slots, ctr := t.ctr, tmr := t.tmr, tmrStart := t.tmrStart, fsm := t.fsm }) h
  exact hforward

theorem State.progresses_endOfFrame (s : State) : s.Progresses s.endOfFrame := by
  have harm : s.Progresses (s.arm .interframe) := rfl
  have hvalidate := State.progresses_of_slotsCtr (s.arm .interframe).validate_frame
  unfold State.endOfFrame
  generalize (s.arm .interframe).validate = u at hvalidate
  have hidle : u.Progresses { u with fsm := .idle } := rfl
  exact (harm.trans hvalidate).trans hidle

theorem State.progresses_rxStored (s : State) (b : Byte) (e : BitVec 4) :
    s.Progresses (((s.bump 0).pushRxByte b).rxFlags e).afterRxByte := by
  have hbump : s.Progresses (s.bump 0) := rfl
  have hpush := State.progresses_of_slotsCtr ((s.bump 0).pushRxByte_frame b)
  have hflags := State.progresses_of_slotsCtr (((s.bump 0).pushRxByte b).rxFlags_frame e)
  refine ((hbump.trans hpush).trans hflags).trans ?_
  unfold State.afterRxByte
  split
  · exact State.progresses_endOfFrame _
  · rfl

theorem State.progresses_leave (s : State) (f : Fsm) : s.Progresses (s.markFinished.leave f) := by
  have hfinished := State.progresses_of_slotsCtr s.markFinished_slotsCtr
  generalize s.markFinished = u at hfinished
  have hleave : u.Progresses (u.leave f) := rfl
  exact hfinished.trans hleave

theorem State.progresses_timeout (s : State) (a : Anomaly) (f : Fsm) :
    s.Progresses ((s.invalidate a).markFinished.leave f) :=
  (State.progresses_of_slotsCtr (s.invalidateIf_frame true a)).trans (State.progresses_leave _ f)

theorem State.progresses_onExpiry (s : State) : s.Progresses s.onExpiry := by
  unfold State.onExpiry
  split
  · rfl
  · exact s.progresses_timeout .responseTimeout .idle
  · split
    · exact s.progresses_timeout .intercharTimeout .ignoring
    · exact s.progresses_endOfFrame
  · exact s.progresses_leave .idle
  · rfl

/-! ### The writers of each register -/

/-- The registers an operation may write, one constructor for each group of operations; what it writes there is left
open. -/
inductive Writes (s : State) : Instr → State → Prop
  | command {i : Instr} (hi : isCommand i = true) (result : Word) :
      Writes s i { s with result := result, herr := false }
  | enqueue {i : Instr} (hi : isEnqueue i = true) (result : Word) (slots : List Slot) (back : Nat) :
      Writes s i { s with result := result, herr := false, slots := slots, back := back }
  | dequeue (result : Word) (slots : List Slot) (front : Nat) :
      Writes s .dequeue { s with result := result, herr := false, slots := slots, front := front }
  | queueReset (result : Word) (slots : List Slot) (front back active : Nat) (txEn : Bool) (tmr : Tmr)
      (tmrStart : Word) (fsm : Fsm) :
      Writes s .queueReset { s with
        result := result, herr := false, slots := slots, front := front, back := back, active := active, txEn := txEn,
        tmr := tmr, tmrStart := tmrStart, fsm := fsm }
  | clearCounters (result : Word) (ctr : Vector Word 18) :
      Writes s .clearCounters { s with result := result, herr := false, ctr := ctr }
  | tick (time : Word) : Writes s .tick { s with time := time }
  | rxByte {b : Byte} {e : BitVec 4} (slots : List Slot) (ctr : Vector Word 18) (tmr : Tmr) (tmrStart : Word)
      (fsm : Fsm) :
      Writes s (.rxByte b e) { s with slots := slots, ctr := ctr, tmr := tmr, tmrStart := tmrStart, fsm := fsm }
  | txReady (slots : List Slot) (ctr : Vector Word 18) (tmr : Tmr) (tmrStart : Word) (fsm : Fsm) (txEn : Bool)
      (txOut : Option Byte) (wire : List Byte) :
      Writes s .txReady { s with
        slots := slots, ctr := ctr, tmr := tmr, tmrStart := tmrStart, fsm := fsm, txEn := txEn, txOut := txOut,
        wire := wire }
  | runIn (slots : List Slot) (ctr : Vector Word 18) (tmr : Tmr) (tmrStart : Word) (fsm : Fsm) :
      Writes s .runIn { s with slots := slots, ctr := ctr, tmr := tmr, tmrStart := tmrStart, fsm := fsm }
  | runOut (active : Nat) (slots : List Slot) (tmr : Tmr) (tmrStart : Word) (fsm : Fsm) (txEn : Bool) :
      Writes s .runOut { s with
        active := active, slots := slots, tmr := tmr, tmrStart := tmrStart, fsm := fsm, txEn := txEn }
  | hrd {addr : Word} {size : HSize} (data : Option Word) (err : Bool) (reads : Nat) :
      Writes s (.hrd addr size) { s with hrdata := data, herr := err, staleReads := reads }
  | hwrCommand {addr : Word} {size : HSize} {data : Word} {op : Opcode} {t : State} (haddr : addr = 0)
      (hsize : size = .word) (hop : decodeOpcode (wordOpcode data) = some op)
      (h : Writes s (op.toInstr (wordDev data)) t) : Writes s (.hwr addr size data) t
  | hwrIllegal {data : Word} (result : Word) : Writes s (.hwr 0 .word data) { s with result := result, herr := false }
  | hwrRegister {addr data : Word} (args : Vector Half 5) (response interchar turnaround interframe : Word) :
      Writes s (.hwr addr .word data) { s with
        args := args, durResponse := response, durInterchar := interchar, durTurnaround := turnaround,
        durInterframe := interframe, herr := false }
  | hwrWdata {addr data : Word} (mem : Memory) : Writes s (.hwr addr .byte data) { s with mem := mem, herr := false }
  | hwrRefused {addr : Word} {size : HSize} {data : Word} : Writes s (.hwr addr size data) { s with herr := true }
  | rst (slots : List Slot) (resets reads : Nat) : Writes s .rst { State.resetWith s.params s.time with
      slots := slots, wire := s.wire, inputs := s.inputs, resets := resets, staleReads := reads }

/-- The outcomes of an operation write no other register; a host write is taken up with its address and size. -/
theorem Effect.writes (heffect : Effect s i t) (hi : ∀ addr size data, i ≠ .hwr addr size data) : Writes s i t := by
  cases heffect with
  | rejected hi r => exact .command hi _
  | @accepted _ _ _ _ _ _ r hi => exact .enqueue hi _ _ _
  | dequeued => exact .dequeue _ _ _
  | queueReset => exact .queueReset _ _ _ _ _ _ _ _ _
  | countersCleared => exact .clearCounters _ _
  | crc hcrc result => exact .command (by rcases hcrc with rfl | rfl <;> rfl) result
  | tick => exact .tick _
  | rxIgnored => exact .rxByte s.slots _ s.tmr s.tmrStart s.fsm
  | @rxStored b e =>
    rw [(s.progresses_rxStored b e).eq]
    exact .rxByte _ _ _ _ _
  | txByte => exact .txReady _ _ s.tmr s.tmrStart s.fsm s.txEn _ _
  | txTurned => exact .txReady s.slots s.ctr _ _ _ _ s.txOut s.wire
  | txIdle => exact .txReady s.slots s.ctr s.tmr s.tmrStart s.fsm _ s.txOut s.wire
  | notExpired => exact .runIn s.slots s.ctr s.tmr s.tmrStart s.fsm
  | expired =>
    rw [s.progresses_onExpiry.eq]
    exact .runIn _ _ _ _ _
  | gateClosed => exact .runOut s.active s.slots s.tmr s.tmrStart s.fsm s.txEn
  | claimed => exact .runOut _ _ _ _ _ _
  | nothingToSend => exact .runOut _ s.slots _ s.tmrStart _ s.txEn
  | hrd data err reads => exact .hrd data err reads
  | hwrCommand | hwrIllegal | hwrArg | hwrDuration | hwrWdata | hwrRefused => exact absurd rfl (hi _ _ _)
  | rst => exact .rst _ _ _

/-- A host write reaches the location at its address, which has its size (20_memory.md R63, R64). -/
theorem writes_of_hwr {addr : Word} {size : HSize} {data : Word} (h : exec (.hwr addr size data) s = .next t) :
    Writes s (.hwr addr size data) t := by
  cases ha : s.access addr size with
  | none =>
    rw [exec_hwr_of_no_access ha] at h
    cases h
    exact .hwrRefused
  | some l =>
    rw [exec_hwr_of_access ha] at h
    obtain ⟨hl, rfl⟩ := (s.access_eq_some_iff addr size l).1 ha
    cases l with
    | cmd =>
      obtain rfl := locate_eq_cmd hl
      cases hop : decodeOpcode (wordOpcode data) with
      | none =>
        obtain rfl : s.rejectCommand .illegalOpcode = t := by simpa [writeLoc, runCommandWord, hop] using h
        exact .hwrIllegal _
      | some op =>
        have hexec : exec (op.toInstr (wordDev data)) s = .next t := by
          simpa only [writeLoc, runCommandWord, hop, runOpcode_eq_exec] using h
        exact .hwrCommand rfl rfl hop ((effect_of_exec hexec).writes (by cases op <;> simp [Opcode.toInstr]))
    | arg k =>
      cases h
      exact .hwrRegister _ s.durResponse s.durInterchar s.durTurnaround s.durInterframe
    | dur d => cases d <;> cases h <;> exact .hwrRegister s.args _ _ _ _
    | wdata k =>
      cases h
      exact .hwrWdata _
    | result | status | qstat | time | tmrStart | ctr | slotHdr0 | slotHdr1 | slotHdr2 | slotTx | slotRx =>
      cases h
      exact .hwrRefused

theorem writes_of_exec (h : exec i s = .next t) : Writes s i t := by
  by_cases hi : ∃ addr size data, i = .hwr addr size data
  · obtain ⟨addr, size, data, rfl⟩ := hi
    exact writes_of_hwr h
  · exact (effect_of_exec h).writes fun addr size data hi' => hi ⟨addr, size, data, hi'⟩

/-- Settles O10: the registers that an operation may write are the ones named for it, and the other fields are those of
the state before. -/
theorem writersOfEachRegister : Obligations.WritersOfEachRegister := by
  intro i s t hwf hexec
  cases writes_of_exec hexec with
  | command hi => simp [hi]
  | enqueue hi => simp [hi, isCommand_of_isEnqueue hi]
  | dequeue | queueReset | clearCounters => simp [isCommand]
  | hwrCommand haddr hsize hop => exact absurd hwf (by simp [wf_hwr_command haddr hsize hop])
  | tick | rxByte | txReady | runIn | runOut | hrd | hwrIllegal | hwrRegister | hwrWdata | hwrRefused => simp
  | rst => simp [State.resetWith]

/-! ### `TIME` -/

/-- No operation but `TICK` writes `TIME`. -/
theorem Writes.time_eq (h : Writes s i t) (hi : i ≠ .tick) : t.time = s.time := by
  induction h with
  | tick => exact absurd rfl hi
  | @hwrCommand _ _ _ op _ _ _ _ _ ih => exact ih (by cases op <;> simp [Opcode.toInstr])
  | command | enqueue | dequeue | queueReset | clearCounters | rxByte | txReady | runIn | runOut | hrd | hwrIllegal
  | hwrRegister | hwrWdata | hwrRefused | rst => rfl

/-- Settles O8: `TICK` by computation, and every other operation by the registers it writes. -/
theorem timeMovesOnlyByTick : Obligations.TimeMovesOnlyByTick :=
  ⟨fun _ => rfl, fun s => BitVec.toNat_add s.time 1, fun _ _ _ hi hexec => (writes_of_exec hexec).time_eq hi⟩

/-! ### The start of a transmission -/

theorem State.afterRxByte_fsm (s : State) : s.afterRxByte.fsm = .idle ∨ s.afterRxByte.fsm = s.fsm := by
  unfold State.afterRxByte
  split
  · exact .inl s.endOfFrame_fsm
  · exact .inr rfl

theorem State.onExpiry_fsm (s : State) :
    s.onExpiry.fsm = .idle ∨ s.onExpiry.fsm = .ignoring ∨ s.onExpiry.fsm = s.fsm := by
  unfold State.onExpiry
  split
  · exact .inr (.inr rfl)
  · exact .inl rfl
  · split
    · exact .inr (.inl rfl)
    · exact .inl s.endOfFrame_fsm
  · exact .inl rfl
  · exact .inr (.inr rfl)

/-- `FSM` becomes `emission` only by a claim (43_client_fsm_timer.md R165). -/
theorem Effect.starts_emission (heffect : Effect s i t) (hwf : i.wf = true) (hbefore : s.fsm ≠ .emission)
    (hafter : t.fsm = .emission) : i = .runOut ∧ s.gate = true := by
  cases heffect with
  | claimed hgate => exact ⟨rfl, hgate⟩
  | @rxStored b e =>
    rcases State.afterRxByte_fsm (((s.bump 0).pushRxByte b).rxFlags e) with hf | hf <;> rw [hafter] at hf
    · cases hf
    · exact absurd (hf.trans (s.received_fsm b e)).symm hbefore
  | expired =>
    rcases s.onExpiry_fsm with hf | hf | hf <;> rw [hafter] at hf
    · cases hf
    · cases hf
    · exact absurd hf.symm hbefore
  | hwrCommand haddr hsize hop => exact absurd hwf (by simp [wf_hwr_command haddr hsize hop])
  | hwrDuration d => cases d <;> exact absurd hafter hbefore
  | queueReset | txTurned | nothingToSend | rst => cases hafter
  | rejected | accepted | dequeued | countersCleared | crc | tick | rxIgnored | txByte | txIdle | notExpired
  | gateClosed | hrd | hwrIllegal | hwrArg | hwrWdata | hwrRefused => exact absurd hafter hbefore

/-- Settles O53: only a claim starts a transmission, and `RUN_OUT` claims only with its gate open. -/
theorem frameSpacing : Obligations.FrameSpacing := by
  intro i s t hwf hexec hbefore hafter
  obtain ⟨hi, hgate⟩ := (effect_of_exec hexec).starts_emission hwf hbefore hafter
  exact ⟨hi, s.gate_iff.1 hgate⟩

end Sys2Proof.Machine
end

section
/-! CLAIM. Which slots an operation touches in a reachable state: an enqueue spares live slots, a transaction finishes
by a terminal condition only, a ready response stays (42_message_queue.md R144 to R147, 43_client_fsm_timer.md R176). -/

namespace Sys2Proof.Machine

variable {s t : State} {i : Instr}

/-! ### The queue -/

/-- Settles O52: it is part of what holds of `available_to_send` in a reachable state. -/
theorem advanceSettles : Obligations.AdvanceSettles := by
  intro s h hsend
  obtain ⟨hagain, hsettled⟩ := h.availableToSend.settles hsend
  exact ⟨h.availableToSend.onlyActive, hagain, hsettled⟩

/-- An enqueuing command leaves the queue alone, or loads a request while there is room (44_pdu_encoders.md R190). -/
theorem enqueue_cases (hi : isEnqueue i = true) (hexec : exec i s = .next t) :
    (t.slots = s.slots ∧ t.back = s.back) ∨ s.full = false ∧ ∃ r, t = s.accept r := by
  obtain ⟨dev, fc, ok, p1, p2, exp, known, henqueue⟩ := exec_eq_encodeAndEnqueue s hi
  obtain rfl : s.encodeAndEnqueue dev fc ok p1 p2 exp known = t := by simpa [henqueue] using hexec
  rcases s.encodeAndEnqueue_cases dev fc ok p1 p2 exp known with hb | hq | ⟨r, hfull, -, -, ha⟩
  · exact .inl (by rw [hb]; exact ⟨rfl, rfl⟩)
  · exact .inl (by rw [hq]; exact ⟨rfl, rfl⟩)
  · exact .inr ⟨hfull, r, ha⟩

/-- Settles O28: a rejected command changes no slot, and an accepted request is loaded into `SLOT[BACK]`, which is
free. -/
theorem enqueueSparesLiveSlots : Obligations.EnqueueSparesLiveSlots := by
  intro i s t k h hi hexec hchanged
  rcases enqueue_cases hi hexec with ⟨hslots, -⟩ | ⟨hfull, r, rfl⟩
  · exact absurd (by rw [State.slot, hslots, State.slot]) hchanged
  · have hk : k = s.back := by
      by_contra hother
      exact hchanged (State.slot_of_set_other (s := s) rfl hother)
    subst hk
    exact ⟨rfl, mt (State.full_iff_noRoom h.wf).2 (by simp [hfull]), h.back_free⟩

/-! ### Terminal conditions -/

/-- A slot that is not blank is in the store. -/
theorem State.lt_of_life_ne_unused {k : Nat} (h : (s.slot k).life ≠ .unused) : k < s.slots.length := by
  by_contra hout
  exact h (by rw [s.slot_of_le (Nat.le_of_not_lt hout)]; rfl)

/-- A slot that becomes finished was in flight, and the operation is `RUN_IN` or `RX_BYTE` (41_transaction.md R133). -/
theorem State.Inv.finishing (h : s.Inv) (hwf : i.wf = true) (hexec : exec i s = .next t) {k : Nat}
    (hbefore : (s.slot k).life ≠ .finished) (hafter : (t.slot k).life = .finished) :
    k = s.active ∧ (s.slot k).life = .sent ∧ (i = .runIn ∨ ∃ b e, i = .rxByte b e) := by
  have hmove := (effect_of_exec hexec).lifeMove h hwf k
  obtain ⟨hsent, hi⟩ : (s.slot k).life = .sent ∧ (i = .runIn ∨ ∃ b e, i = .rxByte b e) := by
    rw [hafter] at hmove
    generalize (s.slot k).life = old at hmove hbefore ⊢
    cases hmove with
    | stays => exact absurd rfl hbefore
    | finishes hi => exact ⟨rfl, hi⟩
  have hk : k < s.n := h.wf.slots ▸ State.lt_of_life_ne_unused (by simp [hsent])
  exact ⟨h.sent_eq_active hk hsent, hsent, hi⟩

/-- `RX_BYTE` finishes the transaction by completing the frame (43_client_fsm_timer.md R167). -/
theorem State.Inv.finishing_rxByte (h : s.Inv) {b : Byte} {e : BitVec 4} (hexec : exec (.rxByte b e) s = .next t)
    (hbefore : s.activeSlot.life = .sent) (hafter : (t.slot s.active).life = .finished) :
    s.fsm = .reception ∧ s.activeSlot.completesNext ∧ t.tmr = .interframe ∧ t.tmrStart = s.time ∧ t.fsm = .idle := by
  obtain ⟨houtside, hinside⟩ := receiveByte s b e h.wf
  by_cases hfsm : s.fsm = .reception
  · obtain ⟨A, ctr, t', hreceived, -, hexec', hstart, hgoes, hends⟩ := hinside hfsm
    obtain rfl : t' = t := by simpa [hexec'] using hexec
    by_cases hcomplete : s.activeSlot.completesNext
    · obtain ⟨-, htmr, hidle, -⟩ := hends hcomplete
      exact ⟨hfsm, hcomplete, htmr, hstart, hidle⟩
    · obtain ⟨hactive, -⟩ := hgoes hcomplete
      have hlife : A.life = s.activeSlot.life := (congrArg Slot.life hreceived.frame :)
      rw [hactive.active, hlife, hbefore] at hafter
      cases hafter
  · obtain ⟨t', hexec', -, hframe⟩ := houtside hfsm
    obtain rfl : t' = t := by simpa [hexec'] using hexec
    have hslots : t'.slots = s.slots := (congrArg State.slots hframe :)
    have hslot : t'.slot s.active = s.activeSlot := by rw [State.slot, hslots]; rfl
    rw [hslot, hbefore] at hafter
    cases hafter

/-- `RUN_IN` finishes the transaction by the expiry of the response, turnaround or inter-character timer
(43_client_fsm_timer.md R169 to R172). -/
theorem State.Inv.finishing_runIn (h : s.Inv) (hexec : exec .runIn s = .next t) (hbefore : s.activeSlot.life = .sent)
    (hafter : (t.slot s.active).life = .finished) :
    s.passed (s.duration s.tmr) ∧ t.tmr = .interframe ∧ t.tmrStart = s.time ∧
      (s.tmr = .response ∧ t.fsm = .idle ∨ s.tmr = .turnaround ∧ t.fsm = .idle ∨
        s.tmr = .interchar ∧ s.activeSlot.lenKnown = false ∧ t.fsm = .idle ∨
        s.tmr = .interchar ∧ s.activeSlot.lenKnown = true ∧ t.fsm = .ignoring) := by
  have hpassed : s.passed (s.duration s.tmr) := by
    by_contra hnot
    obtain rfl : s = t := by simpa [pollWithoutExpiry s (.inr (.inr hnot))] using hexec
    cases hbefore.symm.trans hafter
  obtain ⟨hnone, hinterframe⟩ := h.seq.inFlight_iff.1 (h.seq.only hbefore)
  refine ⟨hpassed, ?_⟩
  cases htmr : s.tmr with
  | none => exact absurd htmr hnone
  | interframe => exact absurd htmr hinterframe
  | response =>
    rw [htmr] at hpassed
    obtain ⟨t', hexec', -, -, htmr', hstart, hfsm, -⟩ := Machine.responseTimeout s h.wf htmr hpassed
    obtain rfl : t' = t := by simpa [hexec'] using hexec
    exact ⟨htmr', hstart, .inl ⟨rfl, hfsm⟩⟩
  | turnaround =>
    rw [htmr] at hpassed
    obtain ⟨t', hexec', -, htmr', hstart, hfsm, -⟩ := Machine.turnaroundOver s h.wf htmr hpassed
    obtain rfl : t' = t := by simpa [hexec'] using hexec
    exact ⟨htmr', hstart, .inr (.inl ⟨rfl, hfsm⟩)⟩
  | interchar =>
    rw [htmr] at hpassed
    cases hknown : s.activeSlot.lenKnown with
    | false =>
      obtain ⟨t', hexec', -, htmr', hstart, hfsm, -⟩ := silenceEndsFrame s h.wf htmr hpassed hknown
      obtain rfl : t' = t := by simpa [hexec'] using hexec
      exact ⟨htmr', hstart, .inr (.inr (.inl ⟨rfl, rfl, hfsm⟩))⟩
    | true =>
      obtain ⟨t', hexec', -, -, htmr', hstart, hfsm, -⟩ := Machine.intercharTimeout s h.wf htmr hpassed hknown
      obtain rfl : t' = t := by simpa [hexec'] using hexec
      exact ⟨htmr', hstart, .inr (.inr (.inr ⟨rfl, rfl, hfsm⟩))⟩

/-- Settles O54: by the lifecycle the slot was in flight and the operation is `RX_BYTE` or `RUN_IN`; each of these
finishes it only by its terminal conditions. -/
theorem terminalConditions : Obligations.TerminalConditions := by
  intro i s t k h hwf hexec hbefore hafter
  obtain ⟨rfl, hsent, hi⟩ := h.finishing hwf hexec hbefore hafter
  have hflight : s.fsm = .emission ∨ s.fsm = .reception := by simpa [State.inFlight] using h.seq.only hsent
  rcases hi with rfl | ⟨b, e, rfl⟩
  · obtain ⟨hpassed, htmr, hstart, hways⟩ := h.finishing_runIn hexec hsent hafter
    exact ⟨rfl, hsent, hflight, htmr, hstart, .inr ⟨rfl, hpassed, hways⟩⟩
  · obtain ⟨hfsm, hcomplete, htmr, hstart, hidle⟩ := h.finishing_rxByte hexec hsent hafter
    exact ⟨rfl, hsent, hflight, htmr, hstart, .inl ⟨b, e, rfl, hfsm, hcomplete, hidle⟩⟩

/-! ### The ready response -/

/-- Replacing a slot that is not finished leaves a finished one alone. -/
theorem State.slot_of_set_of_finished {j k : Nat} {B : Slot} (hslots : t.slots = s.slots.set j B)
    (hj : (s.slot j).life ≠ .finished) (hk : (s.slot k).life = .finished) : t.slot k = s.slot k :=
  State.slot_of_set_other hslots fun hkj => hj (hkj ▸ hk)

/-- Outside `DEQUEUE` and the resets no operation changes a finished slot. -/
theorem Effect.keeps_finished (heffect : Effect s i t) (h : s.Inv) (hwf : i.wf = true) (hdequeue : i ≠ .dequeue)
    (hreset : i ≠ .queueReset) (hrst : i ≠ .rst) {k : Nat} (hk : (s.slot k).life = .finished) :
    t.slot k = s.slot k := by
  have hflight (hfsm : s.inFlight = true) : (s.slot s.active).life ≠ .finished := by
    rw [show (s.slot s.active).life = .sent from h.seq.sent hfsm]
    decide
  cases heffect with
  | @accepted _ _ _ _ _ _ r =>
    have hslots : (s.accept r).slots = s.slots.set s.back (((s.slot s.back).overwrite r).mark .queued) := rfl
    exact State.slot_of_set_of_finished hslots (by rcases h.back_free with hl | hl <;> simp [hl]) hk
  | dequeued => exact absurd rfl hdequeue
  | queueReset => exact absurd rfl hreset
  | rst => exact absurd rfl hrst
  | @rxStored b e hfsm =>
    obtain ⟨A, hr, -⟩ := State.received_rewrites h.wf.active_lt (h.wf.slot_wf _) b e
    obtain ⟨B, hr', -⟩ := State.afterRxByte_rewrites (s := ((s.bump 0).pushRxByte b).rxFlags e)
      (by rw [hr.active, hr.length]; exact h.wf.active_lt)
    exact State.slot_of_set_of_finished (hr.trans hr').slots (hflight (by simp [State.inFlight, hfsm])) hk
  | txByte hfsm =>
    exact State.slot_of_set_of_finished (B := s.activeSlot.popTxByte) rfl (hflight (by simp [State.inFlight, hfsm])) hk
  | expired =>
    by_cases htmr : s.tmr = .none ∨ s.tmr = .interframe
    · rw [State.onExpiry_of_quiet htmr]
    · obtain ⟨hn, hi⟩ := not_or.1 htmr
      obtain ⟨A, hr, -⟩ := State.onExpiry_finishes h.wf.active_lt hn hi
      exact State.slot_of_set_of_finished hr.slots (hflight (h.seq.inFlight_iff.2 ⟨hn, hi⟩)) hk
  | claimed _ hsend =>
    exact State.slot_of_set_of_finished (j := s.advance.active) (B := s.advance.activeSlot.mark .sent) rfl
      (by rw [s.sendable_iff.1 hsend]; decide) hk
  | hwrCommand haddr hsize hop => exact absurd hwf (by simp [wf_hwr_command haddr hsize hop])
  | hwrDuration d => cases d <;> rfl
  | rejected | countersCleared | crc | tick | rxIgnored | txTurned | txIdle | notExpired | gateClosed | nothingToSend
  | hrd | hwrIllegal | hwrArg | hwrWdata | hwrRefused => rfl

/-- Settles O58: the finished front slot stays as it is, `FRONT` stays, and `BACK` moves only while the queue is not
full, so not onto `FRONT`. -/
theorem readyStaysReady : Obligations.ReadyStaysReady := by
  intro i s t h hwf hexec hdequeue hreset hrst hready
  obtain ⟨hne, hfinished⟩ := s.responseReady_iff.1 hready
  have hslot := (effect_of_exec hexec).keeps_finished h hwf hdequeue hreset hrst hfinished
  obtain ⟨-, -, -, hfront, hback, -⟩ := writersOfEachRegister i s t hwf hexec
  have hfront' : t.front = s.front := by
    by_contra hmoved
    exact (hfront hmoved).elim hdequeue (·.elim hreset hrst)
  refine ⟨t.responseReady_iff.2 ?_, hslot⟩
  rw [hfront', hslot]
  refine ⟨?_, hfinished⟩
  by_cases hkept : t.back = s.back
  · rwa [hkept]
  · obtain hi : isEnqueue i = true := (hback hkept).resolve_right (·.elim hreset hrst)
    rcases enqueue_cases hi hexec with ⟨-, hsame⟩ | ⟨hfull, r, rfl⟩
    · exact absurd hsame hkept
    · intro hfront
      have hnoRoom : s.full = true := (State.full_iff_noRoom h.wf).2 hfront.symm
      cases hfull.symm.trans hnoRoom

end Sys2Proof.Machine
end

section
/-! CLAIM. No operation depends on the absolute time, but for two reads (10_state.md R32), or on the pins still to be
carried out. -/

namespace Sys2Proof.Machine

/-! ### Time moved and other pins -/

/-- The state with all times moved by `d` and the pins replaced. -/
def State.relocate (s : State) (d : Word) (f : PortIn → PortIn) : State :=
  { s with time := s.time + d, tmrStart := s.tmrStart + d, pins := f s.pins }

section
variable (s : State) (d : Word) (f : PortIn → PortIn)

/-- A difference of two times does not depend on where they are counted from. -/
theorem State.expired_relocate : (s.relocate d f).expired = s.expired := by
  have helapsed : (s.relocate d f).elapsed = s.elapsed := add_sub_add_right_eq_sub s.time s.tmrStart d
  rw [State.expired, helapsed]
  rfl

theorem State.gate_relocate : (s.relocate d f).gate = s.gate := by
  rw [State.gate, State.expired_relocate]
  rfl

theorem State.advanceFrom_relocate (fuel : Nat) (first : Bool) (a : Nat) :
    (s.relocate d f).advanceFrom fuel first a = s.advanceFrom fuel first a := by
  induction fuel generalizing first a with
  | zero => rfl
  | succ fuel ih =>
    simp only [State.advanceFrom, ih]
    rfl

theorem State.advance_relocate : (s.relocate d f).advance = s.advance.relocate d f := by
  have hactive := s.advanceFrom_relocate d f s.n true s.active
  rw [State.advance]
  exact congrArg (fun a : Nat => { s.relocate d f with active := a }) hactive

theorem State.sendable_relocate : (s.relocate d f).sendable = s.sendable := by
  rw [State.sendable, State.advance_relocate]
  rfl

theorem State.invalidateIf_relocate (c : Bool) (a : Anomaly) :
    (s.relocate d f).invalidateIf c a = (s.invalidateIf c a).relocate d f := by
  cases c <;> rfl

theorem State.rxFlags_relocate (e : BitVec 4) : (s.relocate d f).rxFlags e = (s.rxFlags e).relocate d f := by
  simp only [State.rxFlags, State.invalidateIf_relocate]

theorem State.pushRxByte_relocate (b : Byte) : (s.relocate d f).pushRxByte b = (s.pushRxByte b).relocate d f := by
  by_cases hroom : s.activeSlot.rxCnt < Config.rxCap
  · rw [State.pushRxByte, State.pushRxByte, if_pos hroom]
    exact if_pos hroom
  · rw [State.pushRxByte, State.pushRxByte, if_neg hroom]
    exact if_neg hroom

theorem State.activeSlot_relocate : (s.relocate d f).activeSlot = s.activeSlot := rfl

theorem State.countException_relocate : (s.relocate d f).countException = s.countException.relocate d f := by
  rw [State.countException, State.countException, State.activeSlot_relocate]
  split
  · cases exceptionCounter (s.activeSlot.rxByte 2) <;> rfl
  · rfl

theorem State.markFinished_relocate : (s.relocate d f).markFinished = s.markFinished.relocate d f := rfl

theorem State.arm_relocate (k : Tmr) : (s.relocate d f).arm k = (s.arm k).relocate d f := rfl

theorem State.leave_relocate (next : Fsm) : (s.relocate d f).leave next = (s.leave next).relocate d f := rfl

theorem State.validate_relocate : (s.relocate d f).validate = s.validate.relocate d f := by
  have haddr : (s.relocate d f).checkAddress = s.checkAddress.relocate d f := s.invalidateIf_relocate d f _ _
  have hcrc : (s.checkAddress.relocate d f).checkCrc = s.checkAddress.checkCrc.relocate d f :=
    State.invalidateIf_relocate _ d f _ _
  unfold State.validate
  rw [haddr, hcrc, State.countException_relocate, State.markFinished_relocate]

theorem State.endOfFrame_relocate : (s.relocate d f).endOfFrame = s.endOfFrame.relocate d f := by
  unfold State.endOfFrame
  rw [State.arm_relocate, State.validate_relocate]
  generalize (s.arm .interframe).validate = u
  rfl

theorem State.afterRxByte_relocate : (s.relocate d f).afterRxByte = s.afterRxByte.relocate d f := by
  cases hcomplete : s.activeSlot.isFullyReceived with
  | true =>
    rw [State.afterRxByte_of_complete hcomplete, ← State.endOfFrame_relocate]
    exact State.afterRxByte_of_complete hcomplete
  | false =>
    rw [State.afterRxByte_of_incomplete hcomplete, ← State.arm_relocate]
    exact State.afterRxByte_of_incomplete hcomplete

/-- A timeout that raises an anomaly (43_client_fsm_timer.md R169, R171). -/
theorem State.timeout_relocate (a : Anomaly) (next : Fsm) :
    (((s.relocate d f).invalidate a).markFinished.leave next) =
      ((s.invalidate a).markFinished.leave next).relocate d f := by
  have hraise : (s.relocate d f).invalidate a = (s.invalidate a).relocate d f := s.invalidateIf_relocate d f true a
  rw [hraise, State.markFinished_relocate, State.leave_relocate]

theorem State.onExpiry_relocate : (s.relocate d f).onExpiry = s.onExpiry.relocate d f := by
  have htmr : (s.relocate d f).tmr = s.tmr := rfl
  rw [State.onExpiry, State.onExpiry, htmr, State.activeSlot_relocate]
  cases s.tmr with
  | none | interframe => rfl
  | response => exact s.timeout_relocate d f .responseTimeout .idle
  | interchar =>
    cases s.activeSlot.lenKnown with
    | true => exact s.timeout_relocate d f .intercharTimeout .ignoring
    | false => exact s.endOfFrame_relocate d f
  | turnaround => rfl

/-- The encoders read operands and the queue, and write `RESULT` and the queue. -/
theorem State.encodeAndEnqueue_relocate (dev fc : Byte) (ok : Bool) (p1 p2 : List Byte) (exp : Nat) (known : Bool) :
    (s.relocate d f).encodeAndEnqueue dev fc ok p1 p2 exp known =
      (s.encodeAndEnqueue dev fc ok p1 p2 exp known).relocate d f := by
  cases ok with
  | false => rfl
  | true =>
    simp only [State.encodeAndEnqueue, if_true]
    cases load2 dev fc p1 p2 exp known with
    | none => rfl
    | some r =>
      have hfull : (s.relocate d f).full = s.full := rfl
      cases h : s.full with
      | true => simp only [State.enqueue_of_full h, State.enqueue_of_full (hfull.trans h)]; rfl
      | false => simp only [State.enqueue_of_not_full h, State.enqueue_of_not_full (hfull.trans h)]; rfl

/-- Where nothing but the two time registers is read, the value does not depend on where time is counted from. -/
theorem State.readLoc_relocate {l : Loc} (hl : d = 0 ∨ l ≠ .time ∧ l ≠ .tmrStart) :
    (s.relocate d f).readLoc l = s.readLoc l := by
  have hmoved (w : Word) (hd : d = 0) : w + d = w := by rw [hd]; exact BitVec.add_zero w
  cases l with
  | time => exact hmoved s.time (hl.resolve_right fun h => h.1 rfl)
  | tmrStart => exact hmoved s.tmrStart (hl.resolve_right fun h => h.2 rfl)
  | status =>
    rw [State.readLoc, State.statusWord, State.expired_relocate]
    rfl
  | dur k => cases k <;> rfl
  | cmd | result | arg | qstat | ctr | wdata | slotHdr0 | slotHdr1 | slotHdr2 | slotTx | slotRx => rfl

theorem State.readOut_relocate {l : Loc} (hl : d = 0 ∨ l ≠ .time ∧ l ≠ .tmrStart) :
    (s.relocate d f).readOut l = (s.readOut l).relocate d f := by
  have hstale : (s.relocate d f).isStale l = s.isStale l := by cases l <;> rfl
  rw [State.readOut, State.readOut, hstale, State.readLoc_relocate s d f hl]
  split <;> rfl

end

/-! ### Operations -/

section
variable {s t : State} {i : Instr}

theorem exec_command_relocate (hi : isCommand i = true) (h : exec i s = .next t) (d : Word) (f : PortIn → PortIn) :
    exec i (s.relocate d f) = .next (t.relocate d f) := by
  cases i with
  | readCoils | readDiscreteInputs | readHoldingRegisters | readInputRegisters | writeSingleCoil
  | writeSingleRegister | diagnostics | getCommEventCounter | writeMultipleCoils | writeMultipleRegisters
  | readWriteMultipleRegisters | enqRaw =>
    cases h
    exact congrArg Host.Outcome.next (s.encodeAndEnqueue_relocate d f _ _ _ _ _ _ _)
  | dequeue =>
    by_cases hready : s.responseReady = true
    · obtain rfl := Host.Outcome.next.inj ((exec_dequeue_of_ready hready).symm.trans h)
      exact exec_dequeue_of_ready (s := s.relocate d f) hready
    · obtain rfl := Host.Outcome.next.inj ((exec_dequeue_of_not_ready hready).symm.trans h)
      exact exec_dequeue_of_not_ready (s := s.relocate d f) hready
  | queueReset | clearCounters =>
    cases h
    rfl
  | crcGen | crcChk =>
    by_cases hlen : Config.wdataCap < (s.arg 1).toNat
    · obtain rfl := Host.Outcome.next.inj ((if_pos hlen).symm.trans h)
      exact if_pos hlen
    · obtain rfl := Host.Outcome.next.inj ((if_neg hlen).symm.trans h)
      exact if_neg hlen
  | tick | rxByte | txReady | runIn | runOut | hrd | hwr | rst => cases hi

theorem isCommand_of_isEvent (hi : isEvent i = true) : isCommand i = false := by
  cases i with
  | tick | rxByte | txReady | runIn | runOut | hrd | hwr | rst => rfl
  | readCoils | readDiscreteInputs | readHoldingRegisters | readInputRegisters | writeSingleCoil
  | writeSingleRegister | diagnostics | getCommEventCounter | writeMultipleCoils | writeMultipleRegisters
  | readWriteMultipleRegisters | enqRaw | dequeue | queueReset | clearCounters | crcGen | crcChk => cases hi

theorem exec_event_relocate (hi : isEvent i = true) (h : exec i s = .next t) (d : Word) (f : PortIn → PortIn) :
    exec i (s.relocate d f) = .next (t.relocate d f) := by
  cases effect_of_exec h with
  | tick =>
    have hswap : s.time + d + 1 = s.time + 1 + d := add_right_comm _ _ _
    exact congrArg (fun w : Word => Host.Outcome.next { s.relocate d f with time := w }) hswap
  | rxIgnored hfsm => exact exec_rxByte_of_not_reception (s := s.relocate d f) hfsm _ _
  | @rxStored b e hfsm =>
    have hbump : (s.relocate d f).bump 0 = (s.bump 0).relocate d f := rfl
    rw [exec_rxByte_of_reception (s := s.relocate d f) hfsm, hbump, State.pushRxByte_relocate,
      State.rxFlags_relocate, State.afterRxByte_relocate]
  | txByte hfsm hleft => exact exec_txReady_of_left (s := s.relocate d f) hfsm hleft
  | txTurned hfsm hsent => exact exec_txReady_of_sent (s := s.relocate d f) hfsm hsent
  | txIdle hfsm => exact exec_txReady_of_not_emission (s := s.relocate d f) hfsm
  | notExpired hexpired => exact exec_runIn_of_not_expired ((s.expired_relocate d f).trans hexpired)
  | expired hexpired =>
    rw [exec_runIn_of_expired ((s.expired_relocate d f).trans hexpired), State.onExpiry_relocate]
  | gateClosed hgate =>
    exact exec_runOut_of_closed ((s.gate_relocate d f).trans hgate)
  | claimed hgate hsend =>
    rw [exec_runOut_of_sendable ((s.gate_relocate d f).trans hgate) ((s.sendable_relocate d f).trans hsend),
      State.claim, State.advance_relocate]
    rfl
  | nothingToSend hgate hsend =>
    rw [exec_runOut_of_not_sendable ((s.gate_relocate d f).trans hgate) ((s.sendable_relocate d f).trans hsend),
      State.advance_relocate]
    rfl
  | rejected hc => cases (isCommand_of_isEvent hi).symm.trans hc
  | accepted hc => cases (isCommand_of_isEvent hi).symm.trans (isCommand_of_isEnqueue hc)
  | crc hc => rcases hc with rfl | rfl <;> cases hi
  | dequeued | queueReset | countersCleared | hrd | hwrCommand | hwrIllegal | hwrArg | hwrDuration | hwrWdata
  | hwrRefused | rst => cases hi

theorem exec_hrd_relocate {addr : Word} {size : HSize} (d : Word) (f : PortIn → PortIn)
    (haddr : d = 0 ∨ addr ≠ 0x24 ∧ addr ≠ 0x28) (h : exec (.hrd addr size) s = .next t) :
    exec (.hrd addr size) (s.relocate d f) = .next (t.relocate d f) := by
  have haccess : (s.relocate d f).access addr size = s.access addr size := rfl
  cases hl : s.access addr size with
  | none =>
    rw [exec_hrd_of_no_access hl] at h
    cases h
    exact exec_hrd_of_no_access (haccess.trans hl)
  | some l =>
    rw [exec_hrd_of_access hl] at h
    cases h
    obtain ⟨-, hplace⟩ := locate_sound ((s.access_eq_some_iff addr size l).1 hl).1
    have hloc : d = 0 ∨ l ≠ .time ∧ l ≠ .tmrStart := by
      refine haddr.imp_right fun ⟨htime, hstart⟩ => ⟨?_, ?_⟩
      · rintro rfl
        exact htime (BitVec.eq_of_toNat_eq hplace)
      · rintro rfl
        exact hstart (BitVec.eq_of_toNat_eq hplace)
    rw [exec_hrd_of_access (haccess.trans hl), State.readOut_relocate s d f hloc]

theorem exec_hwr_relocate {addr : Word} {size : HSize} {data : Word} (h : exec (.hwr addr size data) s = .next t)
    (d : Word) (f : PortIn → PortIn) : exec (.hwr addr size data) (s.relocate d f) = .next (t.relocate d f) := by
  have haccess : (s.relocate d f).access addr size = s.access addr size := rfl
  cases hl : s.access addr size with
  | none =>
    rw [exec_hwr_of_no_access hl] at h
    cases h
    exact exec_hwr_of_no_access (haccess.trans hl) data
  | some l =>
    rw [exec_hwr_of_access hl] at h
    rw [exec_hwr_of_access (haccess.trans hl)]
    cases l with
    | cmd =>
      simp only [writeLoc, runCommandWord] at h ⊢
      cases hop : decodeOpcode (wordOpcode data) with
      | none =>
        simp only [hop] at h ⊢
        cases h
        rfl
      | some op =>
        simp only [hop, runOpcode_eq_exec] at h ⊢
        exact exec_command_relocate (isCommand_toInstr _ _) h d f
    | dur k => cases k <;> cases h <;> rfl
    | arg | wdata | result | status | qstat | time | tmrStart | ctr | slotHdr0 | slotHdr1 | slotHdr2 | slotTx
    | slotRx =>
      cases h
      rfl

/-- Every operation but a reset does the same with times moved and other pins; a read of the two time registers only
if the times are not moved. -/
theorem exec_relocate (hrst : i ≠ .rst) {d : Word}
    (hread : d = 0 ∨ (∀ z, i ≠ .hrd 0x24 z) ∧ ∀ z, i ≠ .hrd 0x28 z) (h : exec i s = .next t) (f : PortIn → PortIn) :
    exec i (s.relocate d f) = .next (t.relocate d f) := by
  cases i with
  | readCoils | readDiscreteInputs | readHoldingRegisters | readInputRegisters | writeSingleCoil
  | writeSingleRegister | diagnostics | getCommEventCounter | writeMultipleCoils | writeMultipleRegisters
  | readWriteMultipleRegisters | enqRaw | dequeue | queueReset | clearCounters | crcGen | crcChk =>
    exact exec_command_relocate rfl h d f
  | tick | rxByte | txReady | runIn | runOut => exact exec_event_relocate rfl h d f
  | hrd addr size =>
    refine exec_hrd_relocate d f (hread.imp_right fun ⟨htime, hstart⟩ => ⟨?_, ?_⟩) h
    · rintro rfl
      exact htime size rfl
    · rintro rfl
      exact hstart size rfl
  | hwr => exact exec_hwr_relocate h d f
  | rst => exact absurd rfl hrst

/-- Settles O9: every operation commutes with moving the times, and a reset reads no time but `TIME`, which it keeps. -/
theorem timeIsRelative : Obligations.TimeIsRelative := by
  intro i s t d h
  refine ⟨fun hrst htime hstart => exec_relocate hrst (.inr ⟨htime, hstart⟩) h id, ?_⟩
  rintro rfl
  cases h
  rfl

/-! ### Other pins alone -/

/-- The state with other pins still to be carried out. -/
def State.withPins (s : State) (p : PortIn) : State := { s with pins := p }

/-- Every operation but a reset does the same with other pins (43_client_fsm_timer.md R160). -/
theorem exec_withPins (hrst : i ≠ .rst) (h : exec i s = .next t) (p : PortIn) :
    exec i (s.withPins p) = .next (t.withPins p) := by
  have hstay (u : State) : u.relocate 0 (fun _ => p) = u.withPins p := by
    rw [State.relocate, add_zero, add_zero, State.withPins]
  have hmoved := exec_relocate hrst (d := 0) (.inl rfl) h fun _ => p
  rwa [hstay, hstay] at hmoved

end

end Sys2Proof.Machine
end

section
/-! CLAIM. The pins of a clock cycle ask for its operations in their fixed order, and a cycle is these operations one
after the other (43_client_fsm_timer.md R160). -/

namespace Sys2Proof.Machine

/-! ### The pins of a cycle -/

/-- Quiet pins, once everything has been carried out. -/
def settle (p : PortIn) : PortIn := if p.isQuiet then {} else p

/-- The pins ask for these operations, in this order. -/
inductive Asks : PortIn → List Instr → Prop
  | nothing : Asks {} []
  | first {p : PortIn} {i : Instr} {is : List Instr} (hdecode : decode p = .ok i) (hi : i ≠ .rst ∨ consume p = {})
      (hrest : Asks (consume p) is) : Asks p (i :: is)

/-- The operation of a strobe, if it is set. -/
def strobeOp (b : Bool) (i : Instr) : List Instr := if b then [i] else []

/-- The operations that the strobes ask for, from bit 0 up (43_client_fsm_timer.md R160). -/
def strobeOps (p : PortIn) (e : BitVec 5) : List Instr :=
  strobeOp (e.getLsbD 0) .tick ++ strobeOp (e.getLsbD 1) (.rxByte p.rxData p.rxErr) ++
  strobeOp (e.getLsbD 2) .txReady ++ strobeOp (e.getLsbD 3) .runIn ++ strobeOp (e.getLsbD 4) .runOut

/-- The host access that the pins ask for. -/
def accessOps (p : PortIn) : List Instr := if p.hsel then [decodeAccess p.hwrite p.hsize p.haddr p.hwdata] else []

/-- Clearing the lowest strobe leaves the bits that have one set below them. -/
theorem getLsbD_clearLowest (e : BitVec 5) :
    (e &&& (e - 1)).getLsbD 0 = false ∧
    (e &&& (e - 1)).getLsbD 1 = (e.getLsbD 1 && e.getLsbD 0) ∧
    (e &&& (e - 1)).getLsbD 2 = (e.getLsbD 2 && (e.getLsbD 0 || e.getLsbD 1)) ∧
    (e &&& (e - 1)).getLsbD 3 = (e.getLsbD 3 && (e.getLsbD 0 || e.getLsbD 1 || e.getLsbD 2)) ∧
    (e &&& (e - 1)).getLsbD 4 = (e.getLsbD 4 && (e.getLsbD 0 || e.getLsbD 1 || e.getLsbD 2 || e.getLsbD 3)) := by
  revert e
  decide

theorem clearLowest_lt {e : BitVec 5} (h : e ≠ 0) : (e &&& (e - 1)).toNat < e.toNat := by
  revert e
  decide

theorem strobe_of_ne_zero {e : BitVec 5} (h : e ≠ 0) :
    (e.getLsbD 0 || e.getLsbD 1 || e.getLsbD 2 || e.getLsbD 3 || e.getLsbD 4) = true := by
  revert e
  decide

/-- The lowest strobe is decoded first, and the others are left (43_client_fsm_timer.md R160). -/
theorem decode_strobe {p : PortIn} (hrst : p.rst = false) {e : BitVec 5} (he : e ≠ 0) :
    ∃ i, decode { p with evt := e } = .ok i ∧ i ≠ .rst ∧ strobeOps p e = i :: strobeOps p (e &&& (e - 1)) := by
  have hsome := strobe_of_ne_zero he
  obtain ⟨h0, h1, h2, h3, h4⟩ := getLsbD_clearLowest e
  simp only [decode, strobeOps, strobeOp, hrst, h0, h1, h2, h3, h4]
  generalize e.getLsbD 0 = b0 at hsome ⊢
  generalize e.getLsbD 1 = b1 at hsome ⊢
  generalize e.getLsbD 2 = b2 at hsome ⊢
  generalize e.getLsbD 3 = b3 at hsome ⊢
  generalize e.getLsbD 4 = b4 at hsome ⊢
  cases b0 with
  | true => exact ⟨_, rfl, by simp, by simp⟩
  | false =>
    cases b1 with
    | true => exact ⟨_, rfl, by simp, by simp⟩
    | false =>
      cases b2 with
      | true => exact ⟨_, rfl, by simp, by simp⟩
      | false =>
        cases b3 with
        | true => exact ⟨_, rfl, by simp, by simp⟩
        | false =>
          cases b4 with
          | true => exact ⟨_, rfl, by simp, by simp⟩
          | false => cases hsome

/-- What is left after the first strobe. -/
theorem consume_strobe {p : PortIn} (hrst : p.rst = false) {e : BitVec 5} (he : e ≠ 0) :
    consume { p with evt := e } = settle { p with evt := e &&& (e - 1) } := by
  simp only [consume, settle, clearFirstStrobe, hrst, Bool.false_or, Bool.or_eq_true, beq_iff_eq, he, false_or]

/-- Pins without `RST` ask for their strobes, and then for the host access. -/
theorem asks_strobes {p : PortIn} (hrst : p.rst = false) (e : BitVec 5) :
    Asks (settle { p with evt := e }) (strobeOps p e ++ accessOps p) := by
  by_cases he : e = 0
  · subst he
    by_cases hsel : p.hsel = true
    · have hpending : settle { p with evt := 0 } = { p with evt := 0 } := by simp [settle, PortIn.isQuiet, hsel]
      have hops : strobeOps p 0 ++ accessOps p = [decodeAccess p.hwrite p.hsize p.haddr p.hwdata] := by
        simp [strobeOps, strobeOp, accessOps, hsel]
      have hconsume : consume { p with evt := 0 } = {} := by simp [consume]
      rw [hpending, hops]
      exact .first (by simp [decode, hrst, hsel]) (.inr hconsume) (hconsume ▸ .nothing)
    · have hquiet : settle { p with evt := 0 } = {} := by simp [settle, PortIn.isQuiet, hrst, hsel]
      have hops : strobeOps p 0 ++ accessOps p = [] := by simp [strobeOps, strobeOp, accessOps, hsel]
      rw [hquiet, hops]
      exact .nothing
  · obtain ⟨i, hdecode, hi, hops⟩ := decode_strobe hrst he
    have hpending : settle { p with evt := e } = { p with evt := e } := by simp [settle, isQuiet_of_decode hdecode]
    rw [hpending, hops, List.cons_append]
    refine .first hdecode (.inl hi) ?_
    rw [consume_strobe hrst he]
    exact asks_strobes hrst _
termination_by e.toNat
decreasing_by exact clearLowest_lt he

/-- A clock cycle always has operations: the poller's strobes are set in each (30_encoding.md R87). -/
theorem isQuiet_withPoller (p : PortIn) : (withPoller p).isQuiet = false := by
  have hpoller (e : BitVec 5) : (e ||| 0b11000 == 0) = false := by
    revert e
    decide
  simp only [PortIn.isQuiet, withPoller, hpoller, Bool.and_false, Bool.false_and]

/-- The pins of a clock cycle, with the poller's strobes, ask for its operations (43_client_fsm_timer.md R160). -/
theorem asks_cycleOps (p : PortIn) : Asks (withPoller p) (cycleOps p) := by
  cases hrst : p.rst with
  | true =>
    have hconsume : consume (withPoller p) = {} := consume_of_rst hrst
    rw [cycleOps, if_pos hrst]
    exact .first (decode_of_rst hrst) (.inr hconsume) (hconsume ▸ .nothing)
  | false =>
    have hpending : settle (withPoller p) = withPoller p := if_neg (by simp [isQuiet_withPoller])
    have hops : cycleOps p = strobeOps p (p.evt ||| 0b11000) ++ accessOps p := by
      simp [cycleOps, hrst, strobeOps, strobeOp, accessOps]
    rw [hops, ← hpending]
    exact asks_strobes hrst _

/-! ### The steps of a cycle -/

theorem run_succ {s t : State} (h : step s = .next t) (k : Nat) :
    Host.Core.run Sys2Proof.core (k + 1) s = Host.Core.run Sys2Proof.core k t := by
  simp only [Host.Core.run]
  rw [show Sys2Proof.core.step s = .next t from h]

theorem execAll_cons {i : Instr} {s t : State} (h : exec i s = .next t) (is : List Instr) :
    execAll (i :: is) s = execAll is t := by
  rw [execAll, h]

/-- No operation puts anything on the pins. -/
theorem Writes.pins_empty {s t : State} {i : Instr} (h : Writes s i t) (hpins : s.pins = {}) : t.pins = {} := by
  induction h with
  | rst => rfl
  | hwrCommand _ _ _ _ ih => exact ih
  | command | enqueue | dequeue | queueReset | clearCounters | tick | rxByte | txReady | runIn | runOut | hrd
  | hwrIllegal | hwrRegister | hwrWdata | hwrRefused => exact hpins

/-- From pins that ask for some operations, as many steps are these operations, one after the other. -/
theorem run_of_asks {p : PortIn} {is : List Instr} (h : Asks p is) (s : State) :
    Host.Core.run Sys2Proof.core is.length (s.withPins p) = execAll is (s.withPins {}) := by
  induction h generalizing s with
  | nothing => rfl
  | @first p i is hdecode hi _ ih =>
    obtain ⟨t, ht⟩ := exec_completes i (s.withPins {})
    have hpins : t.withPins {} = t := by
      rw [State.withPins, ← (writes_of_exec ht).pins_empty rfl]
    have hexec : exec i (s.withPins (consume p)) = .next (t.withPins (consume p)) := by
      rcases hi with hi | hi
      · exact exec_withPins hi ht (consume p)
      · rw [hi, hpins, ht]
    have hstep : step (s.withPins p) = .next (t.withPins (consume p)) :=
      (step_of_pending (isQuiet_of_decode hdecode) hdecode).trans hexec
    rw [List.length_cons, run_succ hstep, ih, execAll_cons ht, hpins]

/-- At a cycle boundary a step is a step from the start of the next cycle. -/
theorem step_startCycle {s : State} (hquiet : s.pins.isQuiet = true) : step s.startCycle = step s := by
  have hfetch : s.fetch = s.startCycle := if_pos hquiet
  have hstarted : s.startCycle.fetch = s.startCycle :=
    if_neg (by rw [State.startCycle_pins, State.nextPins, isQuiet_withPoller]; decide)
  rw [step, step, hfetch, hstarted]

/-- Settles O20: the first step samples the pins of the cycle, and these ask for its operations in their order. -/
theorem oneClockCycle : Obligations.OneClockCycle := by
  intro s p hquiet hp
  refine ⟨cycleOps p, fun hrst => if_pos hrst, fun hrst => by simp [cycleOps, hrst], ?_⟩
  have hasks := asks_cycleOps p
  have hcycle := run_of_asks hasks s.startCycle
  have hpins : s.startCycle.withPins (withPoller p) = s.startCycle := by
    rw [← hp]
    rfl
  rw [hpins] at hcycle
  obtain ⟨k, hk⟩ : ∃ k, (cycleOps p).length = k + 1 := by
    cases hrst : p.rst <;> simp [cycleOps, hrst]
  obtain ⟨t, ht⟩ := everyOperationCompletes.2 s
  rw [hk, run_succ ((step_startCycle hquiet).trans ht)] at hcycle
  rw [hk, run_succ ht, hcycle]
  rfl

end Sys2Proof.Machine
end

section
/-! CLAIM. What reads of the registers and of the slot windows return (20_memory.md R61, R62, R69). -/

namespace Sys2Proof.Machine

variable {s : State} {addr : Word}

/-! ### Registers -/

/-- A read at the address of a mapped location, with its size, returns what the location holds, unless that is
unspecified. -/
theorem readsAs_of_mapped {l : Loc} (hl : l.Mapped s.n) (ha : addr.toNat = l.addr) (hstale : s.isStale l = false) :
    ReadsAs s addr l.size (s.readLoc l) := by
  have haccess : s.access addr l.size = some l := (s.access_eq_some_iff _ _ _).2 ⟨locate_complete hl ha, rfl⟩
  rw [ReadsAs, exec_hrd_of_access haccess, State.readOut, hstale]
  rfl

/-- A read of an unspecified byte returns a free value (20_memory.md R69, log 6). -/
theorem exec_hrd_of_stale {l : Loc} (hl : l.Mapped s.n) (ha : addr.toNat = l.addr) (hstale : s.isStale l = true) :
    ∃ b : Byte, exec (.hrd addr l.size) s =
      .next { s with hrdata := some (b.setWidth 32), herr := false, staleReads := s.staleReads + 1 } := by
  have haccess : s.access addr l.size = some l := (s.access_eq_some_iff _ _ _).2 ⟨locate_complete hl ha, rfl⟩
  refine ⟨Config.staleByte s.staleReads, ?_⟩
  rw [exec_hrd_of_access haccess, State.readOut, hstale]
  rfl

/-- Settles O37: each address is that of its location, and a register holds no unspecified byte. -/
theorem hostReads : Obligations.HostReads := by
  intro s
  refine ⟨?_, fun k => ?_, ?_, ?_, ?_, ?_, ?_, ?_, ?_, ?_, fun k => ?_, fun k hk => ?_⟩
  · exact readsAs_of_mapped (l := .result) trivial rfl rfl
  · exact readsAs_of_mapped (l := .arg k) trivial (toNat_ofNat_addr (by omega)) rfl
  · exact readsAs_of_mapped (l := .status) trivial rfl rfl
  · exact readsAs_of_mapped (l := .qstat) trivial rfl rfl
  · exact readsAs_of_mapped (l := .time) trivial rfl rfl
  · exact readsAs_of_mapped (l := .tmrStart) trivial rfl rfl
  · exact readsAs_of_mapped (l := .dur .response) trivial rfl rfl
  · exact readsAs_of_mapped (l := .dur .interchar) trivial rfl rfl
  · exact readsAs_of_mapped (l := .dur .turnaround) trivial rfl rfl
  · exact readsAs_of_mapped (l := .dur .interframe) trivial rfl rfl
  · exact readsAs_of_mapped (l := .ctr k) trivial (toNat_ofNat_addr (by omega)) rfl
  · exact readsAs_of_mapped (l := .wdata k) hk (toNat_ofNat_addr (by omega)) rfl

/-! ### Header words -/

theorem toNat_append_eq_add {m n : Nat} (x : BitVec m) (y : BitVec n) : (x ++ y).toNat = 2 ^ n * x.toNat + y.toNat := by
  rw [BitVec.toNat_append, ← Nat.shiftLeft_add_eq_or_of_lt y.isLt, Nat.shiftLeft_eq, Nat.mul_comm]

theorem Slot.toNat_hdr0 (t : Slot) :
    t.hdr0.toNat = t.life.code.toNat + 2 ^ 8 * t.validMask.toNat + 2 ^ 16 * (if t.lenKnown then 1 else 0) := by
  simp only [Slot.hdr0, toNat_append_eq_add, BitVec.toNat_ofNat, BitVec.toNat_ofBool]
  cases t.lenKnown
  · simp only [Bool.toNat_false, Bool.false_eq_true, if_false]
    omega
  · simp only [Bool.toNat_true, if_true]
    omega

/-- Two 9-bit fields in the halves of a word (20_memory.md R69). -/
theorem toNat_hdr {a b : Nat} (ha : a ≤ 256) (hb : b ≤ 256) :
    (0#7 ++ BitVec.ofNat 9 a ++ 0#7 ++ BitVec.ofNat 9 b).toNat = b + 2 ^ 16 * a := by
  simp only [toNat_append_eq_add, BitVec.toNat_ofNat]
  omega

/-! ### The window of a slot -/

theorem locateWindow_not_writable {i off : Nat} {l : Loc} (h : locateWindow i off = some l) :
    l.isWritable = false := by
  unfold locateWindow at h
  split_ifs at h <;> cases h <;> rfl

section
variable {i : Nat} (hwf : s.Wf) (hi : i < s.n)
include hwf hi

/-- The addresses of a slot window are bus addresses. -/
theorem State.Wf.toNat_window {off : Nat} (hoff : off < 0x400) :
    (BitVec.ofNat 32 (0x1000 + 0x400 * i + off)).toNat = 0x1000 + 0x400 * i + off := by
  have hn := hwf.n_le
  exact toNat_ofNat_addr (by omega)

/-- The offsets between the header words and the buffers, and those beyond the buffers, hold nothing. -/
theorem State.Wf.access_reserved {off : Nat} (z : HSize)
    (hoff : 0x00C ≤ off ∧ off < 0x100 ∨ 0x300 ≤ off ∧ off < 0x400) :
    s.access (BitVec.ofNat 32 (0x1000 + 0x400 * i + off)) z = none := by
  have hlt : off < 0x400 := by omega
  have hnone : locateWindow i off = none := by
    unfold locateWindow
    rw [if_neg (by omega), if_neg (by omega), if_neg (by omega), if_neg (by omega), if_neg (by omega)]
  rw [State.access, locate_window hi hlt (hwf.toNat_window hi hlt), hnone]
  rfl

/-- A slot window cannot be written by the host (20_memory.md R63, R69). -/
theorem State.Wf.exec_hwr_window {off : Nat} (hoff : off < 0x400) (z : HSize) (v : Word) :
    exec (.hwr (BitVec.ofNat 32 (0x1000 + 0x400 * i + off)) z v) s = .next s.refuseWrite := by
  cases ha : s.access (BitVec.ofNat 32 (0x1000 + 0x400 * i + off)) z with
  | none => exact exec_hwr_of_no_access ha v
  | some l =>
    obtain ⟨hl, -⟩ := (s.access_eq_some_iff _ _ _).1 ha
    rw [locate_window hi hoff (hwf.toNat_window hi hoff)] at hl
    rw [exec_hwr_of_access ha, writeLoc_of_not_writable (locateWindow_not_writable hl)]

end

/-- Settles O39: each offset of the window is that of its location or of none, a byte is stale exactly beyond the
lengths, and no location of a window is writable. -/
theorem slotWindow : Obligations.SlotWindow := by
  intro s i hwf hi
  have hslot := hwf.slot_wf i
  have htxLen : (s.slot i).txLen ≤ 256 := hslot.txLen_le.trans hslot.tx_le
  have hrxCnt : (s.slot i).rxCnt ≤ 256 := hslot.rxCnt_le.trans hslot.rx_le
  have hbyte {off k : Nat} (hoff : off ≤ 0x200) (hk : k < 256) :
      (BitVec.ofNat 32 (0x1000 + 0x400 * i + off + k)).toNat = 0x1000 + 0x400 * i + off + k := by
    rw [Nat.add_assoc]
    exact hwf.toNat_window hi (by omega)
  refine ⟨⟨(s.slot i).hdr0, (s.slot i).hdr1, (s.slot i).hdr2, ?_, ?_, ?_, ?_, ?_, ?_⟩, fun k hk => ?_, fun k hk => ?_,
    fun k hk hle => ?_, fun k hk hle => ?_, fun off z hoff => ?_, fun off z v hoff => hwf.exec_hwr_window hi hoff z v⟩
  · exact readsAs_of_mapped (l := .slotHdr0 i) hi (hwf.toNat_window hi (off := 0) (by decide)) rfl
  · exact readsAs_of_mapped (l := .slotHdr1 i) hi (hwf.toNat_window hi (by decide)) rfl
  · exact readsAs_of_mapped (l := .slotHdr2 i) hi (hwf.toNat_window hi (by decide)) rfl
  · rw [Slot.toNat_hdr0]
    cases (s.slot i).life <;> rfl
  · exact toNat_hdr (hslot.txIdx_le.trans htxLen) htxLen
  · exact toNat_hdr hslot.expLen_le hrxCnt
  · have hlt := hk.trans_le htxLen
    exact readsAs_of_mapped (l := .slotTx i k) ⟨hi, hlt⟩ (hbyte (by decide) hlt) (decide_eq_false hk.not_ge)
  · have hlt := hk.trans_le hrxCnt
    exact readsAs_of_mapped (l := .slotRx i k) ⟨hi, hlt⟩ (hbyte (by decide) hlt) (decide_eq_false hk.not_ge)
  · exact exec_hrd_of_stale (l := .slotTx i k) ⟨hi, hk⟩ (hbyte (by decide) hk) (decide_eq_true hle)
  · exact exec_hrd_of_stale (l := .slotRx i k) ⟨hi, hk⟩ (hbyte (by decide) hk) (decide_eq_true hle)
  · exact exec_hrd_of_no_access (hwf.access_reserved hi z hoff)

end Sys2Proof.Machine
end

section
/-! CLAIM. Runs of port events: silence ends the transaction in flight, and a frame goes out on the wire
(43_client_fsm_timer.md R166, R177). -/

namespace Sys2Proof.Machine

variable {s t : State}

/-! ### Lists of operations -/

theorem execAll_append {is js : List Instr} (h : execAll is s = .next t) : execAll (is ++ js) s = execAll js t := by
  induction is generalizing s with
  | nil =>
    cases h
    rfl
  | cons i is ih =>
    obtain ⟨u, hu⟩ := exec_completes i s
    rw [execAll_cons hu] at h
    rw [List.cons_append, execAll_cons hu, ih h]

theorem execAll_snoc {is : List Instr} {i : Instr} {u : State} (h : execAll is s = .next t) (hi : exec i t = .next u) :
    execAll (is ++ [i]) s = .next u := by
  rw [execAll_append h, execAll_cons hi]
  rfl

/-! ### Silence -/

/-- The state one count of `TIME` later. -/
def State.ticked (s : State) : State := { s with time := s.time + 1 }

theorem execAll_silence_succ {u v : State} (hin : exec .runIn s.ticked = .next u) (hout : exec .runOut u = .next v)
    (m : Nat) : execAll (silence (m + 1)) s = execAll (silence m) v := by
  have hcycle : silence (m + 1) = .tick :: .runIn :: .runOut :: silence m := rfl
  have htick : exec .tick s = .next s.ticked := rfl
  rw [hcycle, execAll_cons htick, execAll_cons hin, execAll_cons hout]

/-- One count later one more has elapsed, modulo 2^32 (43_client_fsm_timer.md R163). -/
theorem State.elapsed_ticked (s : State) : s.ticked.elapsed.toNat = (s.elapsed.toNat + 1) % 2 ^ 32 := by
  have hone : s.ticked.elapsed = s.elapsed + 1 := (sub_add_eq_add_sub s.time s.tmrStart 1).symm
  rw [hone]
  exact BitVec.toNat_add _ _

theorem State.Inv.ticked (h : s.Inv) : s.ticked.Inv := h.of_eq rfl rfl rfl

/-- With a transaction in flight, a timer is enabled and the gate of `RUN_OUT` is closed. -/
theorem State.Inv.gate_of_inFlight (h : s.Inv) (hflight : s.inFlight = true) : s.gate = false := by
  obtain ⟨hnone, hinterframe⟩ := h.seq.inFlight_iff.1 hflight
  refine Bool.eq_false_iff.2 fun hgate => ?_
  exact (State.tmr_of_gate hgate).elim hnone hinterframe

/-- A cycle of silence in which the timer expires finishes the transaction; `RUN_OUT` may claim the next one. -/
theorem State.Inv.silence_expired (h : s.Inv) (hflight : s.inFlight = true) (hexpired : s.ticked.expired = true) :
    ∃ t, execAll (silence 1) s = .next t ∧ (t.slot s.active).life = .finished := by
  have hu := h.ticked
  obtain ⟨hnone, hinterframe⟩ := h.seq.inFlight_iff.1 hflight
  obtain ⟨A, hr, hA⟩ := State.onExpiry_finishes (s := s.ticked) hu.wf.active_lt hnone hinterframe
  have hslot := State.slot_of_set_same hr.slots hu.wf.active_lt
  have hfinished : (s.ticked.onExpiry.slot s.active).life = .finished := (congrArg Slot.life hslot).trans hA
  obtain ⟨t, ht⟩ := exec_completes .runOut s.ticked.onExpiry
  refine ⟨t, execAll_silence_succ (exec_runIn_of_expired hexpired) ht 0, ?_⟩
  rw [(effect_of_exec ht).keeps_finished hu.onExpiry rfl (by decide) (by decide) (by decide) hfinished, hfinished]

/-- A cycle of silence in which the timer does not expire only counts. -/
theorem State.Inv.silence_waits (h : s.Inv) (hflight : s.inFlight = true) (hwaits : s.ticked.expired = false)
    (m : Nat) :
    execAll (silence (m + 1)) s = execAll (silence m) s.ticked :=
  execAll_silence_succ (exec_runIn_of_not_expired hwaits) (exec_runOut_of_closed (h.ticked.gate_of_inFlight hflight)) m

theorem State.Inv.expired_iff_of_inFlight (h : s.Inv) (hflight : s.inFlight = true) :
    s.expired = true ↔ (s.duration s.tmr).toNat ≤ s.elapsed.toNat := by
  rw [s.expired_iff]
  exact and_iff_right (h.seq.inFlight_iff.1 hflight).1

theorem State.duration_ticked (s : State) (k : Tmr) : s.ticked.duration k = s.duration k := by
  cases k <;> rfl

/-- At most `k` cycles of silence end the transaction in flight. -/
def State.EndsWithin (s : State) (k : Nat) : Prop :=
  ∃ m t, m ≤ k ∧ execAll (silence m) s = .next t ∧ (t.slot s.active).life = .finished

/-- A cycle of silence ends the transaction, or leaves the running timer below its duration. -/
theorem State.Inv.endsWithin_succ (h : s.Inv) (hflight : s.inFlight = true) {k : Nat}
    (hrest : s.ticked.elapsed.toNat < (s.duration s.tmr).toNat → s.ticked.EndsWithin k) : s.EndsWithin (k + 1) := by
  cases hexpired : s.ticked.expired with
  | true =>
    obtain ⟨t, ht, hfinished⟩ := h.silence_expired hflight hexpired
    exact ⟨1, t, by omega, ht, hfinished⟩
  | false =>
    have hbelow : s.ticked.elapsed.toNat < (s.ticked.duration s.ticked.tmr).toNat := by
      rw [Bool.eq_false_iff] at hexpired
      exact Nat.lt_of_not_le (mt (h.ticked.expired_iff_of_inFlight hflight).2 hexpired)
    rw [s.duration_ticked] at hbelow
    obtain ⟨m, t, hm, ht, hfinished⟩ := hrest hbelow
    exact ⟨m + 1, t, by omega, by rw [h.silence_waits hflight hexpired, ht], hfinished⟩

/-- `k` cycles are enough if the timer reaches its duration within `k` counts and before its count wraps. -/
theorem State.Inv.endsWithin_of_reach (h : s.Inv) (hflight : s.inFlight = true) {k : Nat} (hk : 0 < k)
    (hreach : (s.duration s.tmr).toNat ≤ s.elapsed.toNat + k) (hwrap : s.elapsed.toNat + k < 2 ^ 32) :
    s.EndsWithin k := by
  induction k generalizing s with
  | zero => cases hk
  | succ k ih =>
    have helapsed : s.ticked.elapsed.toNat = s.elapsed.toNat + 1 := by
      rw [s.elapsed_ticked, Nat.mod_eq_of_lt (by omega)]
    have hduration : s.ticked.duration s.ticked.tmr = s.duration s.tmr := s.duration_ticked s.tmr
    refine h.endsWithin_succ hflight fun hbelow => ih h.ticked hflight ?_ ?_ ?_
    · omega
    · rw [hduration]
      omega
    · omega

/-- Settles O55: the running timer's count reaches its duration directly, or starts again from 0 after one cycle. -/
theorem silentLineEnds : Obligations.SilentLineEnds := by
  intro s h hflight
  suffices hends : s.EndsWithin ((s.duration s.tmr).toNat + 1) by
    obtain ⟨m, t, hm, ht, hfinished⟩ := hends
    exact ⟨m, t, hm, ht, hfinished⟩
  have hd := (s.duration s.tmr).isLt
  have he := s.elapsed.isLt
  by_cases hwrap : s.elapsed.toNat + 1 < 2 ^ 32
  · obtain ⟨m, t, hm, ht, hfinished⟩ := h.endsWithin_of_reach hflight
      (k := max 1 ((s.duration s.tmr).toNat - s.elapsed.toNat)) (by omega) (by omega) (by omega)
    exact ⟨m, t, by omega, ht, hfinished⟩
  · have helapsed : s.ticked.elapsed.toNat = 0 := by
      rw [s.elapsed_ticked, show s.elapsed.toNat + 1 = 2 ^ 32 by omega, Nat.mod_self]
    have hduration : s.ticked.duration s.ticked.tmr = s.duration s.tmr := s.duration_ticked s.tmr
    refine h.endsWithin_succ hflight fun hbelow => h.ticked.endsWithin_of_reach hflight (by omega) ?_ (by omega)
    rw [hduration]
    omega

/-! ### A frame on the wire -/

/-- `t` is `s` after `j` bytes of the request frame have been handed to the driver (43_client_fsm_timer.md R166). -/
structure State.Emitted (s : State) (j : Nat) (t : State) : Prop where
  wf : t.Wf
  fsm : t.fsm = .emission
  active : t.active = s.active
  record : t.activeSlot = { s.activeSlot with txIdx := j }
  time : t.time = s.time
  wire : t.wire = s.wire ++ s.activeSlot.tx.take j

/-- One more byte. -/
theorem State.Emitted.txReady {j : Nat} (h : s.Emitted j t) (hlen : s.activeSlot.txLen ≤ s.activeSlot.tx.length)
    (hj : j < s.activeSlot.txLen) : ∃ u, exec .txReady t = .next u ∧ s.Emitted (j + 1) u := by
  have hleft : t.activeSlot.txIdx < t.activeSlot.txLen := by
    rw [h.record]
    exact hj
  obtain ⟨u, hu, -, hwire, hactive, -, hframe⟩ := (transmitReady.2 t h.wf).1 h.fsm hleft
  have hfsm : u.fsm = t.fsm := (congrArg State.fsm hframe :)
  have hsame : u.active = t.active := (congrArg State.active hframe :)
  have htime : u.time = t.time := (congrArg State.time hframe :)
  have hbyte : s.activeSlot.txByte j = s.activeSlot.tx[j] := List.getD_eq_getElem _ _ _
  refine ⟨u, hu, (effect_of_exec hu).keeps_wf h.wf, hfsm.trans h.fsm, hsame.trans h.active, ?_, htime.trans h.time, ?_⟩
  · rw [State.activeSlot, hsame, hactive.active, h.record]
  · rw [hwire, h.wire, h.record, List.append_assoc]
    change s.wire ++ (s.activeSlot.tx.take j ++ [s.activeSlot.txByte j]) = _
    rw [hbyte, List.take_append_getElem]

/-- The first `j` bytes of the frame go out in order. -/
theorem State.Wf.emitted (h : s.Wf) (hfsm : s.fsm = .emission) (hstart : s.activeSlot.txIdx = 0) {j : Nat}
    (hj : j ≤ s.activeSlot.txLen) : ∃ t, execAll (List.replicate j .txReady) s = .next t ∧ s.Emitted j t := by
  induction j with
  | zero => exact ⟨s, rfl, h, hfsm, rfl, by rw [← hstart], rfl, by simp⟩
  | succ j ih =>
    obtain ⟨t, ht, hemitted⟩ := ih (by omega)
    have hslot : s.activeSlot.Wf := h.slot_wf _
    obtain ⟨u, hu, hmore⟩ := hemitted.txReady hslot.txLen_le hj
    exact ⟨u, by rw [List.replicate_succ', execAll_snoc ht hu], hmore⟩

/-- Settles O56: each event hands over the next byte of the frame, and the one after the last turns the line round. -/
theorem frameOnTheWire : Obligations.FrameOnTheWire := by
  intro s h hfsm hstart
  obtain ⟨t, ht, hemitted⟩ := h.emitted hfsm hstart le_rfl
  have hall : t.activeSlot.txLen ≤ t.activeSlot.txIdx := by rw [hemitted.record]
  have hturn := (transmitReady.2 t hemitted.wf).2.1 hemitted.fsm hall
  have hrun := execAll_snoc ht hturn
  rw [← List.replicate_succ'] at hrun
  refine ⟨⟨t, ht, hemitted.fsm, hemitted.wire⟩, _, hrun, rfl, rfl, hemitted.wire, hemitted.time, ?_⟩
  rw [hemitted.record]
  rfl

end Sys2Proof.Machine
end

section
/-! CLAIM. A good response is stored byte by byte and accepted (43_client_fsm_timer.md R167, 45_frame_parser.md R220 to
R222). -/

namespace Sys2Proof.Machine

variable {s t : State}

/-! ### Bytes without error -/

/-- The bytes received are the first ones of the buffer. -/
theorem Slot.Wf.rxByte_eq {A : Slot} (h : A.Wf) {j : Nat} (hj : j < A.rxCnt) (b : Byte) :
    A.rxByte j = A.rxFrame.getD j b := by
  have hlen : j < A.rx.length := hj.trans_le h.rxCnt_le
  have htake : j < A.rxFrame.length := by simpa [Slot.rxFrame, hlen] using hj
  rw [Slot.rxByte, List.getD_eq_getElem _ _ hlen, List.getD_eq_getElem _ _ htake]
  simp [Slot.rxFrame]

theorem Slot.Wf.length_rxFrame {A : Slot} (h : A.Wf) : A.rxFrame.length = A.rxCnt := by
  simp [Slot.rxFrame, h.rxCnt_le]

/-- A stored byte comes last (41_transaction.md R124). -/
theorem Slot.Wf.rxFrame_storeRx {A : Slot} (h : A.Wf) (b : Byte) : (A.storeRx b).rxFrame = A.rxFrame ++ [b] := by
  simp [Slot.rxFrame, Slot.storeRx, List.take_append, h.rxCnt_le]

/-- A byte without error flags that finds room is stored, and nothing else is recorded. -/
theorem Slot.pushed_rxFlagged_zero {A : Slot} (hroom : A.rxFull = false) (b : Byte) :
    (A.pushed b).rxFlagged 0 = A.storeRx b := by
  rw [Slot.rxFlagged_eq, Slot.pushed, hroom]
  simp [Slot.flagIf]

theorem exec_rxByte_good (h : s.Wf) (hfsm : s.fsm = .reception) (hroom : s.activeSlot.rxFull = false) (b : Byte) :
    exec (.rxByte b 0) s =
      .next (s.withRecord (s.activeSlot.storeRx b) (s.activeSlot.receptionCounters 0 s.ctr)).afterRxByte := by
  rw [exec_rxByte_of_reception hfsm, State.received_eq h.active_lt, Slot.pushed_rxFlagged_zero hroom]

/-- It counts in `BYTES_IN` alone. -/
theorem Slot.receptionCounters_zero {A : Slot} (hroom : A.rxFull = false) (ctr : Vector Word 18) {k : Fin 18}
    (hk : k ≠ 0) : (A.receptionCounters 0 ctr)[k] = ctr[k] := by
  have hzero (j : Nat) : (0 : BitVec 4).getLsbD j = false := BitVec.getLsbD_zero
  simp only [Slot.receptionCounters, getElem_countIf, hzero, hroom, hk, Bool.false_eq_true, false_and, and_false,
    if_false]

/-- Validation of a record with the right responder, a good CRC and no exception bit sets and counts nothing. -/
theorem Slot.flagged_of_good {A : Slot} (haddr : ¬ A.badAddress) (hcrc : ¬ A.badCrc) : A.flagged = A := by
  rw [A.flagged_eq, Bool.eq_false_iff.2 (mt A.wrongResponder_iff.1 haddr),
    Bool.eq_false_iff.2 (mt A.not_checkRxCrc_iff.1 hcrc)]
  simp [validationMask]

theorem Slot.validationCounters_of_good {A : Slot} (haddr : ¬ A.badAddress) (hcrc : ¬ A.badCrc)
    (hexception : (A.rxByte 1).getLsbD 7 = false) (ctr : Vector Word 18) (k : Fin 18) :
    (A.validationCounters ctr)[k] = ctr[k] := by
  refine (A.countedOnce_validationCounters ctr k).2 ?_
  rintro (⟨-, h⟩ | ⟨-, h⟩ | ⟨⟨-, -, -, -, h⟩, -⟩)
  · exact haddr h
  · exact hcrc h
  · cases hexception.symm.trans h

/-! ### Good responses -/

/-- A good response to the request `A` of known response length: from the server addressed, of the expected length, with
its CRC, and no exception. -/
structure Slot.GoodResponse (A : Slot) (bytes : List Byte) : Prop where
  known : A.lenKnown = true
  length : A.expLen = bytes.length
  check : crcCheck bytes = true
  responder : bytes.getD 0 0 = A.txByte 0
  unicast : A.txByte 0 ≠ 0
  function : (bytes.getD 1 0).getLsbD 7 = false

/-- `B` is the record `A` with other bytes received. -/
def Slot.SameButRx (A B : Slot) : Prop := { B with rx := A.rx, rxCnt := A.rxCnt } = A

theorem Slot.SameButRx.storeRx {A B : Slot} (h : A.SameButRx B) (b : Byte) : A.SameButRx (B.storeRx b) := h

/-- A frame with no exception bit is complete when the expected length is reached (41_transaction.md R126). -/
theorem Slot.GoodResponse.isFullyReceived_iff {A B : Slot} {bytes rest : List Byte} (h : A.GoodResponse (bytes ++ rest))
    (hsame : A.SameButRx B) (hB : B.Wf) (hframe : B.rxFrame = bytes) : B.isFullyReceived = true ↔ rest = [] := by
  have hknown : B.lenKnown = true := (congrArg Slot.lenKnown hsame :).trans h.known
  have hexp : B.expLen = (bytes ++ rest).length := (congrArg Slot.expLen hsame :).trans h.length
  have hcnt : B.rxCnt = bytes.length := by rw [← hB.length_rxFrame, hframe]
  have hshort : B.isShortException = false := by
    rw [Slot.isShortException, Bool.and_eq_false_imp, decide_eq_true_iff]
    intro hfive
    have hfunction := h.function
    rwa [List.getD_append _ _ _ _ (by omega), ← hframe, ← hB.rxByte_eq (by omega)] at hfunction
  rw [Slot.isFullyReceived, hshort, hknown, hexp, hcnt, Bool.or_false, Bool.true_and, decide_eq_true_iff,
    List.length_append, ← List.length_eq_zero_iff]
  omega

/-- The whole of a good response passes validation (45_frame_parser.md R221 to R223). -/
theorem Slot.GoodResponse.valid {A B : Slot} {bytes : List Byte} (h : A.GoodResponse bytes) (hsame : A.SameButRx B)
    (hB : B.Wf) (hframe : B.rxFrame = bytes) :
    ¬ B.badAddress ∧ ¬ B.badCrc ∧ (B.rxByte 1).getLsbD 7 = false := by
  have hlen : 2 ≤ B.rxCnt := by
    rw [← hB.length_rxFrame, hframe]
    by_contra hshort
    cases (crcCheck_of_short (Nat.lt_of_not_le hshort)).symm.trans h.check
  have htx : B.txByte 0 = A.txByte 0 := by
    have htx : B.tx = A.tx := (congrArg Slot.tx hsame :)
    rw [Slot.txByte, htx, Slot.txByte]
  have hfirst : B.rxByte 0 = A.txByte 0 := by rw [hB.rxByte_eq (by omega) 0, hframe, h.responder]
  refine ⟨?_, ?_, ?_⟩
  · rw [Slot.badAddress, hfirst, htx]
    rintro (hzero | hother | hbroadcast)
    · omega
    · exact hother rfl
    · exact h.unicast hbroadcast
  · rw [Slot.badCrc, hframe, h.check]
    decide
  · rw [hB.rxByte_eq (by omega) 0, hframe, h.function]

/-! ### Reception -/

/-- `t` is `s` after the transaction in flight has received these bytes, without error and with more to come. -/
structure State.Receiving (s : State) (bytes : List Byte) (t : State) : Prop where
  wf : t.Wf
  fsm : t.fsm = .reception
  active : t.active = s.active
  record : s.activeSlot.SameButRx t.activeSlot
  bytes : t.activeSlot.rxFrame = bytes
  time : t.time = s.time
  ctr : ∀ k : Fin 18, k ≠ 0 → t.ctr[k] = s.ctr[k]

/-- While bytes are expected there is room for them: the expected length is that of a buffer at most. -/
theorem State.Receiving.room {bytes rest : List Byte} (h : s.Receiving bytes t)
    (hgood : s.activeSlot.GoodResponse (bytes ++ rest)) (hrest : rest ≠ []) : t.activeSlot.rxFull = false := by
  have hslot : t.activeSlot.Wf := h.wf.slot_wf _
  have hexp : t.activeSlot.expLen = (bytes ++ rest).length := (congrArg Slot.expLen h.record :).trans hgood.length
  have hcap : t.activeSlot.expLen ≤ 256 := hslot.expLen_le
  have hpos := List.length_pos_of_ne_nil hrest
  rw [Slot.rxFull_eq_false_iff, ← hslot.length_rxFrame, h.bytes]
  rw [hexp, List.length_append] at hcap
  omega

/-- A byte with more to come is stored (43_client_fsm_timer.md R167). -/
theorem State.Receiving.rxByte {bytes rest : List Byte} {b : Byte} (h : s.Receiving bytes t)
    (hgood : s.activeSlot.GoodResponse (bytes ++ [b] ++ rest)) (hrest : rest ≠ []) :
    ∃ u, exec (.rxByte b 0) t = .next u ∧ s.Receiving (bytes ++ [b]) u := by
  have hroom : t.activeSlot.rxFull = false := h.room (by rwa [List.append_assoc] at hgood) (by simp)
  have hslot : t.activeSlot.Wf := h.wf.slot_wf _
  have hframe : (t.activeSlot.storeRx b).rxFrame = bytes ++ [b] := by rw [hslot.rxFrame_storeRx, h.bytes]
  have hstored := hslot.storeRx (t.activeSlot.rxFull_eq_false_iff.1 hroom) b
  have hpart : (t.activeSlot.storeRx b).isFullyReceived = false :=
    Bool.eq_false_iff.2 (mt (hgood.isFullyReceived_iff (h.record.storeRx b) hstored hframe).1 hrest)
  have hexec := exec_rxByte_good h.wf h.fsm hroom b
  have hactive := State.activeSlot_withRecord h.wf.active_lt (t.activeSlot.storeRx b)
    (t.activeSlot.receptionCounters 0 t.ctr)
  rw [State.afterRxByte_of_incomplete (by rw [hactive, hpart])] at hexec
  refine ⟨_, hexec, (effect_of_exec hexec).keeps_wf h.wf, h.fsm, h.active, ?_, ?_, h.time, fun k hk => ?_⟩
  · rw [State.arm_activeSlot, hactive]
    exact h.record
  · rw [State.arm_activeSlot, hactive, hframe]
  · exact (Slot.receptionCounters_zero hroom t.ctr hk).trans (h.ctr k hk)

/-- The last byte completes the frame, which is valid (43_client_fsm_timer.md R167, 45_frame_parser.md R220). -/
theorem State.Receiving.rxByte_last {bytes : List Byte} {b : Byte} (h : s.Receiving bytes t)
    (hgood : s.activeSlot.GoodResponse (bytes ++ [b])) :
    ∃ u, exec (.rxByte b 0) t = .next u ∧ u.slot s.active = (t.activeSlot.storeRx b).mark .finished ∧
      u.fsm = .idle ∧ u.tmr = .interframe ∧ u.tmrStart = s.time ∧ ∀ k : Fin 18, k ≠ 0 → u.ctr[k] = s.ctr[k] := by
  have hroom := h.room hgood (by simp)
  have hlt := h.wf.active_lt
  have hslot : t.activeSlot.Wf := h.wf.slot_wf _
  have hframe : (t.activeSlot.storeRx b).rxFrame = bytes ++ [b] := by rw [hslot.rxFrame_storeRx, h.bytes]
  have hstored := hslot.storeRx (t.activeSlot.rxFull_eq_false_iff.1 hroom) b
  have hcomplete : (t.activeSlot.storeRx b).isFullyReceived = true :=
    (Slot.GoodResponse.isFullyReceived_iff (by rwa [List.append_nil]) (h.record.storeRx b) hstored hframe).2 rfl
  obtain ⟨haddr, hcrc, hexception⟩ := hgood.valid (h.record.storeRx b) hstored hframe
  have hexec := exec_rxByte_good h.wf h.fsm hroom b
  have hactive := State.activeSlot_withRecord hlt (t.activeSlot.storeRx b) (t.activeSlot.receptionCounters 0 t.ctr)
  rw [State.afterRxByte_of_complete (by rw [hactive, hcomplete]), State.endOfFrame_withRecord hlt,
    Slot.flagged_of_good haddr hcrc] at hexec
  refine ⟨_, hexec, ?_, rfl, rfl, h.time, fun k hk => ?_⟩
  · rw [← h.active]
    exact State.slot_of_set_same (s := t) rfl hlt
  · have hvalid := Slot.validationCounters_of_good haddr hcrc hexception (t.activeSlot.receptionCounters 0 t.ctr) k
    exact (hvalid.trans (Slot.receptionCounters_zero hroom t.ctr hk)).trans (h.ctr k hk)

/-- All but the last bytes of a good response are received. -/
theorem State.Receiving.all_but_last {bytes rest : List Byte} (hstart : s.Receiving [] s)
    (hgood : s.activeSlot.GoodResponse (bytes ++ rest)) (hrest : rest ≠ []) :
    ∃ t, execAll (bytes.map fun b => .rxByte b 0) s = .next t ∧ s.Receiving bytes t := by
  induction bytes using List.reverseRecOn generalizing rest with
  | nil => exact ⟨s, rfl, hstart⟩
  | append_singleton bytes b ih =>
    obtain ⟨t, ht, hreceiving⟩ := ih (rest := b :: rest) (by rwa [List.append_assoc] at hgood) (by simp)
    obtain ⟨u, hu, hmore⟩ := hreceiving.rxByte hgood hrest
    exact ⟨u, by rw [List.map_append, List.map_singleton, execAll_snoc ht hu], hmore⟩

/-- Settles O57: every byte but the last is stored, and the last one completes the frame, which passes validation. -/
theorem responseAccepted : Obligations.ResponseAccepted := by
  intro s bytes hwf hfsm hcnt hmask hknown hlength hcheck hresponder hunicast hfunction
  have hstart : s.Receiving [] s :=
    ⟨hwf, hfsm, rfl, rfl, by rw [Slot.rxFrame, hcnt, List.take_zero], rfl, fun _ _ => rfl⟩
  have hgood : s.activeSlot.GoodResponse bytes := ⟨hknown, hlength, hcheck, hresponder, hunicast, hfunction⟩
  rcases List.eq_nil_or_concat' bytes with rfl | ⟨bytes, b, rfl⟩
  · cases (crcCheck_of_short (by decide)).symm.trans hcheck
  · obtain ⟨t, ht, hreceiving⟩ := State.Receiving.all_but_last hstart hgood (by simp)
    obtain ⟨u, hu, hslot, hidle, htmr, htime, hctr⟩ := hreceiving.rxByte_last hgood
    have hmask' : t.activeSlot.validMask = 0 := (congrArg Slot.validMask hreceiving.record :).trans hmask
    have hactive : t.activeSlot.Wf := hreceiving.wf.slot_wf _
    have hframe : (t.activeSlot.storeRx b).rxFrame = bytes ++ [b] := by
      rw [hactive.rxFrame_storeRx, hreceiving.bytes]
    refine ⟨u, by rw [List.map_append, List.map_singleton, execAll_snoc ht hu], ?_, ?_, ?_, hidle, htmr, htime, hctr⟩
    · rw [hslot]
      rfl
    · rw [hslot]
      exact hmask'
    · rw [hslot]
      exact hframe

end Sys2Proof.Machine
end
